-- ==== Sys2Proof/Word.lean ====
section
/-! DEFINITION. The bit-vector types of DPCORE (spec/00_scope.md R7, R9, R10): every value is unsigned. -/

namespace Sys2Proof

/-- A byte, 8 bits (R9). -/
abbrev Byte := BitVec 8

/-- A timestamp, `TS_W = 16` bits (R7). -/
abbrev Timestamp := BitVec 16

/-- A checksum, `CK_LEN = 4` bytes (R7, R100). -/
abbrev Checksum := BitVec 32

/-- A request read as one 64-bit word, byte `k` in bits `[8k+7:8k]` (R63, R213). -/
abbrev ReqWord := BitVec 64

/-- `zeros(n)`: `n` bytes of value 0x00 (R9). -/
def zeros (n : Nat) : List Byte := List.replicate n 0

end Sys2Proof
end

