-- ==== Sys2Proof/Config.lean ====
section
/-! DEFINITION. What is fixed for the machine: the sizes of R7 that shape its state, and the free values: the one open
function of R8 and the idle value of STSREG, constants without a body. The wire constants (opcode byte, query token)
stand in Machine/Params.lean. -/

namespace Sys2Proof.Config

/-- `N_SLOTS`: number of variable slots (R7). -/
abbrev nSlots : Nat := 64

/-- `RSP_LEN`: bytes of a response frame (R7). -/
abbrev rspLen : Nat := 260

/-- FREE VALUE (log entry 1): the reference engine's checksum, whose body the source does not give
(R100, R103, R106; N1, N2). It has no body, so nothing can be proved of its values. The machine's `CK` is
`Sys2Proof.Machine.ck`, which uses it wherever the numbered rules fix no value. -/
opaque ckReference : List Byte → Checksum

/-- FREE VALUE (log entry 25): what STSREG holds once its status byte is transferred. R27 and D8 say that the byte is
not retained, and no rule gives the idle value. It has no body, so nothing can be proved of it. -/
opaque stsIdle : Byte

end Sys2Proof.Config
end

