-- ==== Sys2Proof/Machine/Checksum.lean ====
section
/-! DEFINITION. The checksum function `CK` (spec/40_checksum.md): an open parameter of which the rules state
only some values, with the properties R104 and R105 named as predicates of a candidate function. -/

namespace Sys2Proof.Machine

/-- One byte of the recurrence of R107, on the pair `(a, b)`. -/
def adlerByte (ab : Nat × Nat) (x : Byte) : Nat × Nat :=
  let a := (ab.1 + x.toNat) % 65521
  (a, (ab.2 + a) % 65521)

/-- `ADLER32`, the standard Adler-32 (R107; the definition is PRESUMED, log entry 2). -/
def adler32 (bs : List Byte) : Checksum :=
  let ab := bs.foldl adlerByte (1, 0)
  BitVec.ofNat 32 (ab.2 * 65536 + ab.1)

/-- Property CK_ZERO of a candidate checksum function (R104). -/
def CkZero (c : List Byte → Checksum) : Prop := ∀ n, c (zeros n) = adler32 (zeros n)

/-- Property CK_SMALL_ADLER of a candidate checksum function (R105): a named hypothesis of the claims that need
concrete SET bytes, never a definition (D3). -/
def CkSmallAdler (c : List Byte → Checksum) : Prop := ∀ b : List Byte, b.length = 4 → c b = adler32 b

/-- `CK` (R100): on all-zero inputs the value R104 fixes, on every other input the free value
`Config.ckReference` (log entry 1). The one function serves requests and reports (R102). -/
def ck (bs : List Byte) : Checksum :=
  if bs.all (· == 0) then adler32 bs else Config.ckReference bs

end Sys2Proof.Machine
end

