-- ==== Sys2Proof/Machine/Bytes.lean ====
section
/-! DEFINITION. Byte order (R10, R43, R44, R63): every multi-byte field is little-endian. -/

namespace Sys2Proof.Machine

/-- The number a byte sequence stands for, lowest byte first: the sum of `B[k] * 2^(8k)` (R10, R63). -/
def leNat : List Byte → Nat
  | [] => 0
  | b :: bs => b.toNat + 256 * leNat bs

/-- `LE16(b0, b1)` (R10). -/
def le16 (b0 b1 : Byte) : Timestamp := BitVec.ofNat 16 (leNat [b0, b1])

/-- `LE32(b0, b1, b2, b3)` (R10). -/
def le32 (b0 b1 b2 b3 : Byte) : Checksum := BitVec.ofNat 32 (leNat [b0, b1, b2, b3])

/-- `LE64(P[0..7])`: the request word of a byte sequence (R63). -/
def le64 (bs : List Byte) : ReqWord := BitVec.ofNat 64 (leNat bs)

/-- `bytesLE16(v) = [v[7:0], v[15:8]]` (R10). -/
def bytesLE16 (v : Timestamp) : List Byte := [v.extractLsb' 0 8, v.extractLsb' 8 8]

/-- `bytesLE32(v)` (R10). -/
def bytesLE32 (v : Checksum) : List Byte :=
  [v.extractLsb' 0 8, v.extractLsb' 8 8, v.extractLsb' 16 8, v.extractLsb' 24 8]

/-- The eight bytes of a request word, `P[k] = W[8k+7:8k]` (R63, R213). -/
def bytesLE64 (w : ReqWord) : List Byte :=
  [w.extractLsb' 0 8, w.extractLsb' 8 8, w.extractLsb' 16 8, w.extractLsb' 24 8,
   w.extractLsb' 32 8, w.extractLsb' 40 8, w.extractLsb' 48 8, w.extractLsb' 56 8]

end Sys2Proof.Machine
end

