-- ==== Sys2Proof/Machine/Params.lean ====
section
/-! DEFINITION. The wire constants of R7, named once so that a correction is one edit (N13). -/

namespace Sys2Proof.Machine

/-- `REQ_LEN`: bytes of a request (R7, R71). -/
def reqLen : Nat := 8

/-- `REC_LEN`: bytes of a slot record (R7). -/
def recLen : Nat := 4

/-- `PAYLOAD_LEN`: bytes of a report's payload (R7). -/
def payloadLen : Nat := Config.nSlots * recLen

/-- `CK_LEN`: bytes of a checksum field (R7). -/
def ckLen : Nat := 4

/-- `OP_SET`: the opcode byte of a SET (R7, R65). -/
def opSet : Byte := 0xF1

/-- `QUERY_TOKEN`: the ASCII bytes of `AreyouOK` (R7, R61; the byte values are PRESUMED, log entry 12). -/
def queryToken : List Byte := [0x41, 0x72, 0x65, 0x79, 0x6F, 0x75, 0x4F, 0x4B]

/-- The query token as a request word (R63). -/
def queryWord : ReqWord := 0x4B4F756F79657241

end Sys2Proof.Machine
end

