-- ==== Sys2Proof/Machine/Operands.lean ====
section
/-! DEFINITION. The operand fields of a request word in format S (R62, R63, R64): unsigned, taken as they stand. -/

namespace Sys2Proof.Machine

/-- `C = W[31:0]`, the claimed checksum. -/
def reqClaimed (w : ReqWord) : Checksum := w.extractLsb' 0 32

/-- `OP = W[39:32]`, the opcode byte. -/
def reqOpcode (w : ReqWord) : Byte := w.extractLsb' 32 8

/-- `V = W[47:40]`, the variable id. -/
def reqVar (w : ReqWord) : Byte := w.extractLsb' 40 8

/-- `S = W[55:48]`, the sender id. -/
def reqSender (w : ReqWord) : Byte := w.extractLsb' 48 8

/-- `X = W[63:56]`, the value. -/
def reqValue (w : ReqWord) : Byte := w.extractLsb' 56 8

/-- The checksummed payload `P[4..7]` of a SET, the opcode byte included (R62). -/
def setPayload (var snd val : Byte) : List Byte := [opSet, var, snd, val]

/-- The slot a variable id selects: ids 0..63 map one-to-one, ids 64..255 select none (R41). -/
def slotIndex (var : Byte) : Option (Fin Config.nSlots) :=
  if h : var.toNat < Config.nSlots then some ⟨var.toNat, h⟩ else none

end Sys2Proof.Machine
end

