-- ==== Sys2Proof/Syntax.lean ====
section
/-! DEFINITION. The request set of DPCORE: one constructor per row of spec/opcode_table.json
(R2, R60, R193), and the internal cause labels of R240. -/

namespace Sys2Proof

/-- A decoded request. `QUERY` and `SET` are the source's `Query` and `Set` (R12); the two MALFORMED rows
keep every bit of the request they were read from, so that no bit of an encoding is dropped. -/
inductive Instr where
  /-- QUERY: the token `AreyouOK` (R61, R182). -/
  | query
  /-- SET: variable id, sender id, value; its claimed checksum is the payload's own (R62, R183). -/
  | set (var snd val : Byte)
  /-- MALFORMED, cause BAD_CHECKSUM: opcode 0xF1, claimed checksum unlike the payload's (R186). -/
  | malformedBadChecksum (claimed : Checksum) (var snd val : Byte)
  /-- MALFORMED, cause BAD_OPCODE: neither the token nor opcode 0xF1 (R185). -/
  | malformedBadOpcode (word : ReqWord)
deriving DecidableEq, Repr

/-- The internal labels of the error taxonomy (R240). They are never driven on a port (R241). -/
inductive Cause where
  /-- A request whose length is not 8 bytes: the host's to prevent, refused by a model (R121, R220). -/
  | framing
  /-- Not the token and `P[4] ≠ 0xF1`. -/
  | badOpcode
  /-- `P[4] = 0xF1` and the claimed checksum is wrong. -/
  | badChecksum
  /-- A valid SET naming a variable id of 64 or more. -/
  | range
deriving DecidableEq, Repr

end Sys2Proof
end

