-- ==== Sys2Proof/WellFormed.lean ====
section
/-! DEFINITION. Which terms of `Instr` stand for a request: the guards of spec/opcode_table.json (R60, R65). -/

namespace Sys2Proof

/-- The guard of each row of the opcode table, for a checksum function `c`. QUERY and SET have no illegal
operands (R126); a MALFORMED term must be a request that its row, and no earlier one, matches (R245). -/
def Instr.wfWith (c : List Byte → Checksum) : Instr → Bool
  | .query => true
  | .set _ _ _ => true
  | .malformedBadChecksum claimed var snd val => claimed != c (Machine.setPayload var snd val)
  | .malformedBadOpcode w => w != Machine.queryWord && Machine.reqOpcode w != Machine.opSet

/-- Well-formedness under the machine's own `CK`. -/
def Instr.wf (i : Instr) : Bool := i.wfWith Machine.ck

end Sys2Proof
end

