-- ==== Sys2Proof/Decode.lean ====
section
/-! DEFINITION. The packet decoder (spec/41_decode.md), total on any bytes, and the encoder written from the same
formats (spec/30_encoding.md). Both take the checksum function as an argument (R8), and the machine's own are
their values at `Machine.ck`. -/

namespace Sys2Proof

/-- `Decode(P[0..7])` in the order of checks of R122: token, opcode, checksum. -/
def decodeBytes (c : List Byte → Checksum) (p0 p1 p2 p3 p4 p5 p6 p7 : Byte) : Instr :=
  if [p0, p1, p2, p3, p4, p5, p6, p7] = Machine.queryToken then .query
  else if p4 ≠ Machine.opSet then .malformedBadOpcode (Machine.le64 [p0, p1, p2, p3, p4, p5, p6, p7])
  else if c [p4, p5, p6, p7] ≠ Machine.le32 p0 p1 p2 p3 then
    .malformedBadChecksum (Machine.le32 p0 p1 p2 p3) p5 p6 p7
  else .set p5 p6 p7

/-- The decoder on a byte sequence of any length: exactly 8 bytes decode, any other length is refused as FRAMING
(R121, R127, R240). -/
def decodeWith (c : List Byte → Checksum) : List Byte → Except Cause Instr
  | [p0, p1, p2, p3, p4, p5, p6, p7] => .ok (decodeBytes c p0 p1 p2 p3 p4 p5 p6 p7)
  | _ => .error .framing

/-- The decoder on the word of the request port, where no other length can stand (R121, R213). -/
def decodeWordWith (c : List Byte → Checksum) (w : ReqWord) : Instr :=
  decodeBytes c (w.extractLsb' 0 8) (w.extractLsb' 8 8) (w.extractLsb' 16 8) (w.extractLsb' 24 8)
    (w.extractLsb' 32 8) (w.extractLsb' 40 8) (w.extractLsb' 48 8) (w.extractLsb' 56 8)

/-- The machine's decoder. -/
def decode (p : List Byte) : Except Cause Instr := decodeWith Machine.ck p

/-- The machine's decoder on a request word. -/
def decodeWord (w : ReqWord) : Instr := decodeWordWith Machine.ck w

/-- What the decoder reads from the table's numbering of a row's bits: bit 0 is the least significant bit of the
first byte (R63), and bits above `nbits` are 0. -/
def decodeTableWord (nbits w : Nat) : Option Instr :=
  (decode (Machine.bytesLE64 (BitVec.ofNat 64 (w % 2 ^ nbits)))).toOption

/-- The bytes of a request (R61, R62; the notation SETC, SET and RAW of R72). -/
def encodeWith (c : List Byte → Checksum) : Instr → List Byte
  | .query => Machine.queryToken
  | .set var snd val => Machine.bytesLE32 (c (Machine.setPayload var snd val)) ++ Machine.setPayload var snd val
  | .malformedBadChecksum claimed var snd val => Machine.bytesLE32 claimed ++ Machine.setPayload var snd val
  | .malformedBadOpcode w => Machine.bytesLE64 w

/-- The bytes of a request under the machine's own `CK`. -/
def encode (i : Instr) : List Byte := encodeWith Machine.ck i

/-- The request as the word `req_data` carries (R63, R213). -/
def encodeWord (i : Instr) : ReqWord := Machine.le64 (encode i)

end Sys2Proof
end

