-- ==== Sys2Proof/Machine/Flags.lean ====
section
/-! DEFINITION. DPCORE has no flags and no condition codes (R27). Its one condition output is the status byte
(R187), computed here. -/

namespace Sys2Proof.Machine

/-- The status byte of a transaction: 0x01 for accepted, 0x00 otherwise (R187). -/
def statusByte (accepted : Bool) : Byte := if accepted then 1 else 0

/-- The only two values a status byte may take (R187). -/
def isStatus (b : Byte) : Bool := b == 0 || b == 1

end Sys2Proof.Machine
end

