-- ==== Sys2Proof/Machine/State.lean ====
section
/-! DEFINITION. The state of DPCORE (spec/10_state.md), all of it: the slot register file, every hidden register of a
transaction (R29 to R36), the event trace of R37, and the host's side of the ports (R210, R219) as plain data. -/

namespace Sys2Proof.Machine

/-- One variable slot `{ts, snd, val}` (R12, R20). -/
structure Slot where
  ts : Timestamp
  snd : Byte
  val : Byte
deriving DecidableEq, Repr

/-- The phases of a transaction, the values of `PHASE` (R29). -/
inductive Phase where
  | idle
  | decode
  | tsWait
  | write
  | reportBuild
  | reportSend
  | status
deriving DecidableEq, Repr

/-- One port transfer with its data (R191, R211). -/
inductive Event where
  /-- A request transfer: `req_data` (R213). -/
  | req (w : ReqWord)
  /-- A timestamp transfer: `ts_data` (R214). -/
  | ts (t : Timestamp)
  /-- A response transfer: `rsp_data` and `rsp_last` (R215). -/
  | rsp (b : Byte) (last : Bool)
  /-- A status transfer: `sts_data` (R216). -/
  | sts (b : Byte)
deriving DecidableEq, Repr

/-- How the host answers DPCORE's handshakes during a transaction (R219): its liberties and whether it meets each
of its three "eventually" duties. -/
structure HostAnswers where
  /-- The timestamp the host gives when asked, any 16-bit value (R184, U10). `none`: it never answers `ts_req`. -/
  ts : Option Timestamp
  /-- It eventually accepts every response byte. -/
  acceptsFrame : Bool
  /-- It eventually accepts the status byte. -/
  acceptsStatus : Bool
deriving DecidableEq, Repr

/-- What the host does next at the ports, between transactions. -/
inductive HostMove where
  /-- Offer a request, of any length so that a framing error can be said (R121, R220), answering the handshakes of
  its transaction so. -/
  | request (bytes : List Byte) (answers : HostAnswers)
  /-- Assert `rst` (R219, R260). -/
  | reset
deriving DecidableEq, Repr

/-- The machine. The fields down to `ckAcc` are DPCORE's own; the others are the model's bookkeeping (R37) and
the host's side of the ports (R219). -/
structure State where
  /-- `SLOT[0..63]` (R20). -/
  slots : Vector Slot Config.nSlots
  /-- `PHASE` (R29). -/
  phase : Phase
  /-- `REQ`, the accepted request (R30; what it holds between transactions: log entry 24). -/
  req : ReqWord
  /-- `TSREG`, the timestamp of a SET (R31; what it holds between transactions: log entry 24). -/
  tsreg : Timestamp
  /-- `STSREG`, the status byte from its decision until it is sent (R34), and then an idle value (R27), held until the
  next decision (log entry 25). -/
  stsreg : Byte
  /-- `RSPBUF`, the response buffer of exactly 260 bytes (R32; what it holds between transactions: log entry 24). -/
  rspbuf : Vector Byte Config.rspLen
  /-- `BYTECNT`, the offset of the next frame byte to send, 0..259 (R36). -/
  bytecnt : Fin Config.rspLen
  /-- The checksum engine's accumulators (R33, R109), held as the bytes fed since the engine was started: the source
  gives neither their layout nor the recurrence, and whatever they hold is a function of these bytes. -/
  ckAcc : List Byte
  /-- MODEL'S OWN: the port transfers so far, oldest first (R37, R191, R192). -/
  trace : List Event
  /-- MODEL'S OWN: the internal cause labels of the requests rejected so far, oldest first (R240, U9). -/
  labels : List Cause
  /-- THE HOST'S: how it answers the handshakes of the transaction at hand (R219). -/
  host : HostAnswers
  /-- THE HOST'S: its coming moves, the next one first. -/
  inbox : List HostMove
deriving DecidableEq, Repr

/-- Why a transaction has no step: the host leaves a handshake unanswered, and DPCORE waits for ever (R217, R219,
R244, U4). Nothing else stops DPCORE. All three are safe: the model stops where the hardware only waits. -/
inductive Fault where
  /-- Raised by a decoded SET, or a transaction resumed before its timestamp transfer: the host never answers
  `ts_req`, a hang in TS_WAIT. Safe. -/
  | hangTsWait
  /-- Raised by QUERY, or a transaction resumed before its frame is sent: the host does not accept every frame byte, a
  hang in REPORT_SEND. Safe. -/
  | hangReportSend
  /-- Raised by every request: the host never accepts the status byte, a hang in STATUS. Safe. -/
  | hangStatus
deriving DecidableEq, Repr

/-- What the model refuses: the two behaviours of R220, which cannot happen at DPCORE's ports. -/
inductive Refusal where
  /-- An instruction without a meaning in this model. No arm of `exec` raises it. Safe. -/
  | notModelled (mnemonic : String)
  /-- Raised by the step when the host's next request is not 8 bytes long (R121, R220, U1). Safe: the port is 64 bits
  wide, so no behaviour of the hardware is lost. -/
  | framing
  /-- Raised by every meaning when it is run while a transaction is in progress (R220, U2, U3). Safe: in DPCORE
  `req_ready = 0` holds the request back, and the step never does it. -/
  | requestWhileBusy
deriving DecidableEq, Repr

/-- The sentinel `{0, 0, 0}`, every slot's reset value (R23). -/
def Slot.zero : Slot := { ts := 0, snd := 0, val := 0 }

/-- The machine right after reset (R260). R23 gives `SLOT`, R29 gives `PHASE`; the hidden registers, which R30 to
R36 leave unspecified and never read before they are written, are 0 (log entry 3, DESIGN CHOICE). The host's side
is a host that meets its duties and offers nothing yet (log entry 4, DESIGN CHOICE). -/
def State.reset : State where
  slots := Vector.replicate Config.nSlots Slot.zero
  phase := .idle
  req := 0
  tsreg := 0
  stsreg := 0
  rspbuf := Vector.replicate Config.rspLen 0
  bytecnt := 0
  ckAcc := []
  trace := []
  labels := []
  host := { ts := some 0, acceptsFrame := true, acceptsStatus := true }
  inbox := []

end Sys2Proof.Machine
end

