-- ==== Sys2Proof/Machine/Report.lean ====
section
/-! DEFINITION. The response encoder and serializer (spec/43_report.md, format R of spec/30_encoding.md). -/

namespace Sys2Proof.Machine

/-- `Rec({ts, snd, val}) = [ts[7:0], ts[15:8], snd, val]` (R70, R160). -/
def record (v : Slot) : List Byte := bytesLE16 v.ts ++ [v.snd, v.val]

/-- `Payload(T)`: the 64 records in slot-index order (R160). -/
def payload (t : Vector Slot Config.nSlots) : List Byte := t.toList.flatMap record

/-- The bytes of `EncodeReport(T)`: the payload's checksum, little-endian, then the payload (R69, R161). -/
def reportBytes (c : List Byte → Checksum) (t : Vector Slot Config.nSlots) : List Byte :=
  bytesLE32 (c (payload t)) ++ payload t

theorem payload_length (t : Vector Slot Config.nSlots) : (payload t).length = 256 := by
  simp [payload, List.length_flatMap, record, bytesLE16, Config.nSlots]

theorem reportBytes_length (c : List Byte → Checksum) (t : Vector Slot Config.nSlots) :
    (reportBytes c t).length = Config.rspLen := by
  simp [reportBytes, payload_length, bytesLE32]

/-- `EncodeReport(T)`, exactly 260 bytes whatever the table holds (R161, R162). -/
def encodeReportWith (c : List Byte → Checksum) (t : Vector Slot Config.nSlots) :
    Vector Byte Config.rspLen :=
  ⟨(reportBytes c t).toArray, by simp [reportBytes_length]⟩

/-- `EncodeReport` under the machine's own `CK` (R102). -/
def encodeReport (t : Vector Slot Config.nSlots) : Vector Byte Config.rspLen := encodeReportWith ck t

/-- `rsp_last`: the offered byte is `F[259]` (R210, R215). -/
def isLast (k : Nat) : Bool := k == 259

/-- The response transfers of a frame from offset `k` on, in offset order (R164, R215). -/
def frameEvents (f : Vector Byte Config.rspLen) (k : Nat) : List Event :=
  (f.toList.mapIdx fun j b => Event.rsp b (isLast j)).drop k

/-- The frame offset of byte `j` of slot `i`'s record, `4 + 4i + j` (R69, R70). -/
def recordOffset (i : Fin Config.nSlots) (j : Fin 4) : Fin Config.rspLen :=
  ⟨4 + 4 * i.val + j.val, by simp only [Config.rspLen]; have := i.isLt; simp only [Config.nSlots] at this; omega⟩

/-- Slot `i` as a host reads it back from a frame (R167). -/
def readBack (f : Vector Byte Config.rspLen) (i : Fin Config.nSlots) : Slot where
  ts := le16 f[recordOffset i 0] f[recordOffset i 1]
  snd := f[recordOffset i 2]
  val := f[recordOffset i 3]

/-- The checksum field of a frame, `LE32(F[0], F[1], F[2], F[3])` (R163). -/
def frameChecksum (f : Vector Byte Config.rspLen) : Checksum := le32 f[0] f[1] f[2] f[3]

/-- The payload of a frame, `F[4..259]` (R69). -/
def framePayload (f : Vector Byte Config.rspLen) : List Byte := f.toList.drop 4

end Sys2Proof.Machine
end

