-- ==== Sys2Proof/Machine/Ops.lean ====
section
/-! DEFINITION. The named operations on the state: the slot register file, the checksum engine, and the work of
each phase of R190. The transactions (Transaction.lean) and the clocked machine (Clock.lean) are both made of these.

DPCORE takes no exception and has none to return from (R243): what it does with an erroneous request is the one
operation `State.reject`. -/

namespace Sys2Proof.Machine

/-- What one step of this machine answers. -/
abbrev Out := Host.Outcome State Fault Refusal

/-! ### The slot register file (spec/42_table.md) -/

/-- `Snapshot()`: the 64 slot values in index order, read only (R143). -/
def State.snapshot (s : State) : Vector Slot Config.nSlots := s.slots

/-- `TableSet` (R141, R142): writes one whole slot when the id is below 64 and nothing otherwise, and says which. -/
def State.tableSet (var snd val : Byte) (ts : Timestamp) (s : State) : Bool × State :=
  match slotIndex var with
  | some i => (true, { s with slots := s.slots.set i.val { ts := ts, snd := snd, val := val } })
  | none => (false, s)

/-! ### The checksum engine (R109)

R109 lets the engine take its bytes one at a time or several per cycle. Here a computation is fed whole, at the one
edge that ends its phase: DESIGN CHOICE, log entry 26. -/

/-- Start a computation: the accumulators take the engine's own initial state. -/
def State.ckStart (s : State) : State := { s with ckAcc := [] }

/-- Feed one byte. -/
def State.ckFeed (s : State) (b : Byte) : State := { s with ckAcc := s.ckAcc ++ [b] }

/-- The result of the bytes fed since the start. -/
def State.ckResult (s : State) : Checksum := ck s.ckAcc

/-- One whole computation: start, then every byte in offset order. -/
def State.ckRun (s : State) (bs : List Byte) : State := bs.foldl State.ckFeed s.ckStart

/-! ### The work of the phases (R190) -/

/-- IDLE, a request transfer: `REQ <- req_data` (R213). STSREG, whose status is not yet decided, holds still: DESIGN
CHOICE, log entry 25. -/
def State.recvRequest (w : ReqWord) (s : State) : State :=
  { s with req := w, phase := .decode, trace := s.trace ++ [.req w] }

/-- DECODE of a QUERY: on to REPORT_BUILD. -/
def State.toReport (s : State) : State := { s with phase := .reportBuild }

/-- DECODE of a SET, whose payload went through the checksum engine (R125): on to TS_WAIT. -/
def State.toTimestamp (var snd val : Byte) (s : State) : State :=
  { s.ckRun (setPayload var snd val) with phase := .tsWait }

/-- An erroneous request: status 0, no other effect, no trap (R185, R186, R242, R243); the label is kept in the
model's own record only (R240). -/
def State.reject (cause : Cause) (s : State) : State :=
  { s with stsreg := statusByte false, phase := .status, labels := s.labels ++ [cause] }

/-- DECODE of MALFORMED, cause BAD_CHECKSUM: the payload went through the checksum engine (R125). -/
def State.rejectChecksum (var snd val : Byte) (s : State) : State :=
  (s.ckRun (setPayload var snd val)).reject .badChecksum

/-- DECODE of MALFORMED, cause BAD_OPCODE: the checksum is not looked at (R124, R185; log entry 6). -/
def State.rejectOpcode (s : State) : State := s.reject .badOpcode

/-- TS_WAIT, the timestamp transfer: `TSREG <- ts_data` (R184, R214). STSREG, whose status is not yet decided, holds
still: DESIGN CHOICE, log entry 25. -/
def State.takeTimestamp (t : Timestamp) (s : State) : State :=
  { s with tsreg := t, phase := .write, trace := s.trace ++ [.ts t] }

/-- WRITE: `STSREG <- TableSet(var, snd, val, TSREG)`; a rejected id leaves the label RANGE (R183, R240). The clocked
machine does it at the edge that ends WRITE: DESIGN CHOICE, log entry 26. -/
def State.writeSlot (var snd val : Byte) (s : State) : State :=
  match s.tableSet var snd val s.tsreg with
  | (true, s') => { s' with stsreg := statusByte true, phase := .status }
  | (false, s') => s'.reject .range

/-- REPORT_BUILD: the payload goes through the checksum engine and the frame into RSPBUF (R161, R165), which nothing
else writes but reset, so that the frame stays there until the next QUERY (log entry 24, DESIGN CHOICE; R32 and U12 leave
it open). -/
def State.buildReport (s : State) : State :=
  { s.ckRun (payload s.snapshot) with
    rspbuf := encodeReport s.snapshot, bytecnt := 0, phase := .reportSend }

/-- REPORT_SEND, one response transfer: the byte at BYTECNT, and after `F[259]` on to STATUS with status 1 (R164). -/
def State.sendByte (s : State) : State :=
  let ev : Event := .rsp s.rspbuf[s.bytecnt] (isLast s.bytecnt)
  if h : s.bytecnt.val + 1 < Config.rspLen then
    { s with bytecnt := ⟨s.bytecnt.val + 1, h⟩, trace := s.trace ++ [ev] }
  else
    { s with stsreg := statusByte true, phase := .status, trace := s.trace ++ [ev] }

/-- REPORT_SEND to its end: every byte from BYTECNT on is transferred, `F[259]` last (R164). That RSPBUF keeps the frame
afterwards (log entry 24, DESIGN CHOICE) and BYTECNT stays at 259 (log entry 20) is the model's. -/
def State.sendFrame (s : State) : State :=
  { s with
    bytecnt := 259, stsreg := statusByte true, phase := .status,
    trace := s.trace ++ frameEvents s.rspbuf s.bytecnt }

/-- STATUS, the status transfer: the transaction ends and PHASE is IDLE again (R216). STSREG does not retain the byte
(R27, D8): it takes an idle value, which no rule gives, so a free value (log entry 25). REQ, TSREG and RSPBUF keep
what they held: DESIGN CHOICE, log entry 24. -/
def State.sendStatus (s : State) : State :=
  { s with phase := .idle, stsreg := Config.stsIdle, trace := s.trace ++ [.sts s.stsreg] }

/-! ### Reset (R260, R261) -/

/-- A rising edge with `rst = 1`, in any phase: every piece of DPCORE's state takes its reset value and no transfer
happens. The record of past transfers and the host's side are not DPCORE's and stay. -/
def State.coreReset (s : State) : State :=
  { State.reset with trace := s.trace, labels := s.labels, host := s.host, inbox := s.inbox }

end Sys2Proof.Machine
end

