-- ==== Sys2Proof/Machine/Transaction.lean ====
section
/-! DEFINITION. A transaction from a phase of R190 to its end, the host answering its handshakes as the state says
(R180, R191, R192, R219). The meanings of the requests and the step on a transaction already in progress share
these. A handshake the host never answers is a transaction with no step: a fault of that name (U4). -/

namespace Sys2Proof.Machine

/-- From STATUS on: the status transfer ends the transaction (R216). -/
def finishStatus (s : State) : Out :=
  if s.host.acceptsStatus then .next s.sendStatus else .fault .hangStatus

/-- From REPORT_SEND on: the frame, then the status 1 (R164, R182). -/
def finishSend (s : State) : Out :=
  if s.host.acceptsFrame then finishStatus s.sendFrame else .fault .hangReportSend

/-- From REPORT_BUILD on (R165). -/
def finishBuild (s : State) : Out := finishSend s.buildReport

/-- From WRITE on, for a decoded `Set{var, snd, val}` (R183). -/
def finishWrite (var snd val : Byte) (s : State) : Out := finishStatus (s.writeSlot var snd val)

/-- From TS_WAIT on: exactly one timestamp read, whether or not the id is in range (R184). -/
def finishTsWait (var snd val : Byte) (s : State) : Out :=
  match s.host.ts with
  | some t => finishWrite var snd val (s.takeTimestamp t)
  | none => .fault .hangTsWait

/-- From DECODE on: the dispatcher runs exactly one arm (R181). -/
def finishDecode (s : State) : Out :=
  match decodeWord s.req with
  | .query => finishBuild s.toReport
  | .set var snd val => finishTsWait var snd val (s.toTimestamp var snd val)
  | .malformedBadChecksum _ var snd val => finishStatus (s.rejectChecksum var snd val)
  | .malformedBadOpcode _ => finishStatus s.rejectOpcode

/-- The rest of the transaction in progress, from whatever phase it is in (R190). Between transactions nothing
is left to do. -/
def resume (s : State) : Out :=
  match s.phase with
  | .idle => .next s
  | .decode => finishDecode s
  | .tsWait => finishTsWait (reqVar s.req) (reqSender s.req) (reqValue s.req) s
  | .write => finishWrite (reqVar s.req) (reqSender s.req) (reqValue s.req) s
  | .reportBuild => finishBuild s
  | .reportSend => finishSend s
  | .status => finishStatus s

/-- A transaction starts only in IDLE (R213). A model that can express a request during another transaction refuses
it (R220). -/
def whenIdle (s : State) (run : State → Out) : Out :=
  if s.phase = .idle then run s else .refused .requestWhileBusy

end Sys2Proof.Machine
end

