-- ==== Sys2Proof/Machine/Malformed.lean ====
section
/-! DEFINITION. The meanings of the two MALFORMED rows (R185, R186): status 0 and nothing else (R242). -/

namespace Sys2Proof.Machine

/-- MALFORMED with cause BAD_CHECKSUM (R186): nothing is written, even when the id is in range. -/
def execMalformedBadChecksum (claimed : Checksum) (var snd val : Byte) (s : State) : Out :=
  whenIdle s fun s =>
    finishStatus
      ((s.recvRequest (encodeWord (.malformedBadChecksum claimed var snd val))).rejectChecksum var snd val)

/-- MALFORMED with cause BAD_OPCODE (R185). -/
def execMalformedBadOpcode (word : ReqWord) (s : State) : Out :=
  whenIdle s fun s => finishStatus (s.recvRequest (encodeWord (.malformedBadOpcode word))).rejectOpcode

end Sys2Proof.Machine
end

