-- ==== Sys2Proof/Machine/Query.lean ====
section
/-! DEFINITION. The meaning of QUERY (R182). -/

namespace Sys2Proof.Machine

/-- QUERY (R182): the report of a snapshot of all slots, exactly one frame, then status 1. No timestamp is read and no
slot written. -/
def execQuery (s : State) : Out :=
  whenIdle s fun s => finishBuild (s.recvRequest (encodeWord .query)).toReport

end Sys2Proof.Machine
end

