-- ==== Sys2Proof/Machine/Set.lean ====
section
/-! DEFINITION. The meaning of SET (R183, R184). -/

namespace Sys2Proof.Machine

/-- SET (R183): one timestamp is read, then the whole slot `var` is written if `var < 64`; the status says which.
The range is checked by the table, not by the decoder (R126), so ids of 64 and more run here too (R68). -/
def execSet (var snd val : Byte) (s : State) : Out :=
  whenIdle s fun s =>
    finishTsWait var snd val ((s.recvRequest (encodeWord (.set var snd val))).toTimestamp var snd val)

end Sys2Proof.Machine
end

