-- ==== Sys2Proof/Machine/Dispatch.lean ====
section
/-! DEFINITION. The dispatcher (R181): one arm per request of the table. -/

namespace Sys2Proof.Machine

def exec (i : Instr) (s : State) : Host.Outcome State Fault Refusal :=
  match i with
  | .query => Sys2Proof.Machine.execQuery s
  | .set var snd val => Sys2Proof.Machine.execSet var snd val s
  | .malformedBadChecksum claimed var snd val => Sys2Proof.Machine.execMalformedBadChecksum claimed var snd val s
  | .malformedBadOpcode word => Sys2Proof.Machine.execMalformedBadOpcode word s

end Sys2Proof.Machine
end

