-- ==== Sys2Proof/Machine/Fetch.lean ====
section
/-! DEFINITION. What the machine does next, read from the host's coming moves: DPCORE fetches no instructions (R2,
R54); its requests come in at the request port (R213). -/

namespace Sys2Proof.Machine

/-- What the next step is. -/
inductive Fetched where
  /-- The host asserts `rst` (R260, R261). -/
  | reset (s : State)
  /-- A transaction is in progress: it goes on to its end, and a request waits at `req_ready = 0` (R213). -/
  | resume
  /-- IDLE and nothing offered: DPCORE waits with `req_ready = 1` (R253). -/
  | wait
  /-- The request is not 8 bytes long (R121). -/
  | badLength
  /-- A request is accepted, and the host's answers for its transaction with it. -/
  | run (i : Instr) (s : State)
deriving Repr

/-- The next step, from the host's first coming move and PHASE. -/
def fetch (s : State) : Fetched :=
  match s.inbox with
  | [] => if s.phase = .idle then .wait else .resume
  | .reset :: rest => .reset { s with inbox := rest }
  | .request p a :: rest =>
    if s.phase = .idle then
      match decode p with
      | .ok i => .run i { s with inbox := rest, host := a }
      | .error _ => .badLength
    else .resume

end Sys2Proof.Machine
end

