-- ==== Sys2Proof/Machine/Step.lean ====
section
/-! DEFINITION. One architectural step: one transaction (R2, R11, R192). -/

namespace Sys2Proof.Machine

/-- One step (R192). From IDLE it takes the host's next request and runs its whole transaction. A reset takes
effect in any phase (R261). A transaction found in progress runs to its end before the next is accepted (R213). -/
def step (s : State) : Host.Outcome State Fault Refusal :=
  match fetch s with
  | .reset s' => .next s'.coreReset
  | .resume => resume s
  | .wait => .next s
  | .badLength => .refused .framing
  | .run i s' => exec i s'

/-- `s` with the request whose bits are `w`, numbered as spec/opcode_table.json numbers them, offered next at the
request port of an idle DPCORE, by a host that answers as it does in `s` (log entry 5). -/
def State.withFetchWord (s : State) (nbits w : Nat) : State :=
  { s with
    phase := .idle,
    inbox := .request (bytesLE64 (BitVec.ofNat 64 (w % 2 ^ nbits))) s.host :: s.inbox }

end Sys2Proof.Machine
end

