-- ==== Sys2Proof/Machine/Clock.lean ====
section
/-! DEFINITION. The clocked machine (R37: what a cycle-level model keeps): the ports of R210, the handshake rule of
R211, and the phase table of R190 as one rising edge of `clk` at a time. How many edges a phase takes is the open
parameter LAT (R8, R218), given here edge by edge. -/

namespace Sys2Proof.Machine

/-- The input ports at a rising edge (R210). -/
structure Pins where
  rst : Bool
  reqValid : Bool
  reqData : ReqWord
  tsValid : Bool
  tsData : Timestamp
  rspReady : Bool
  stsReady : Bool
deriving DecidableEq, Repr

/-- One rising edge of `clk`: the input ports, and whether the work of a phase that waits for nothing outside (DECODE,
WRITE, REPORT_BUILD) is done at it. The second is the parameter LAT (R190, R218; log entry 7): any finite number of
edges, chosen anew each time. -/
structure Edge where
  pins : Pins
  done : Bool
deriving DecidableEq, Repr

/-- The output ports (R210). -/
structure Outputs where
  reqReady : Bool
  tsReq : Bool
  rspValid : Bool
  rspData : Byte
  rspLast : Bool
  stsValid : Bool
  stsData : Byte
deriving DecidableEq, Repr

/-- The data outputs while their valid signal is 0: unspecified (R212, U15), so free values, an argument that every
statement quantifies over (log entry 8). -/
structure IdleData where
  rspData : Byte
  rspLast : Bool
  stsData : Byte
deriving DecidableEq, Repr

/-- The output ports as functions of PHASE, BYTECNT and the registers offered (R35, R190, R213 to R216). -/
def State.outputs (free : IdleData) (s : State) : Outputs where
  reqReady := s.phase == .idle
  tsReq := s.phase == .tsWait
  rspValid := s.phase == .reportSend
  rspData := if s.phase = .reportSend then s.rspbuf[s.bytecnt] else free.rspData
  rspLast := if s.phase = .reportSend then isLast s.bytecnt else free.rspLast
  stsValid := s.phase == .status
  stsData := if s.phase = .status then s.stsreg else free.stsData

/-- The end of phase DECODE: the dispatcher picks the next phase (R181, R190). -/
def State.decodeDone (s : State) : State :=
  match decodeWord s.req with
  | .query => s.toReport
  | .set var snd val => s.toTimestamp var snd val
  | .malformedBadChecksum _ var snd val => s.rejectChecksum var snd val
  | .malformedBadOpcode _ => s.rejectOpcode

/-- One rising edge of `clk` (R190, R211). With `rst = 1` it resets and nothing is transferred (R260). Otherwise a
phase is left only as R190 says: on the transfer it waits for, or, where it waits for nothing, when its work is done.
A phase that is held stays as it is, without a time limit (R217).

Three points are the model's. A hidden register holds still at every edge that does not use it: REQ, TSREG and RSPBUF
(DESIGN CHOICE, log entry 24), STSREG until the status is decided (DESIGN CHOICE, log entry 25), BYTECNT outside
REPORT_SEND (log entry 20), the accumulators between computations (DESIGN CHOICE, log entry 11). The work of DECODE,
WRITE and REPORT_BUILD takes effect whole at the edge that ends the phase, and the state keeps still at the earlier
edges: the checksum engine is fed there (R109 gives no schedule), SLOT and STSREG are written there (R190 and R261
give no moment in WRITE), RSPBUF is filled there (DESIGN CHOICE, log entry 26). A request offered at the first edge
with `rst = 0` is transferred at it (R211, R213, R190), although R260 speaks of IDLE after that edge (DEDUCED, log
entry 27). -/
def State.edge (e : Edge) (s : State) : State :=
  if e.pins.rst then s.coreReset
  else
    match s.phase with
    | .idle => if e.pins.reqValid then s.recvRequest e.pins.reqData else s
    | .decode => if e.done then s.decodeDone else s
    | .tsWait => if e.pins.tsValid then s.takeTimestamp e.pins.tsData else s
    | .write => if e.done then s.writeSlot (reqVar s.req) (reqSender s.req) (reqValue s.req) else s
    | .reportBuild => if e.done then s.buildReport else s
    | .reportSend => if e.pins.rspReady then s.sendByte else s
    | .status => if e.pins.stsReady then s.sendStatus else s

/-- Edges in order. -/
def State.edges (es : List Edge) (s : State) : State := es.foldl (fun s e => s.edge e) s

/-- Edges in order until the transaction in progress ends, the state in which it does; none if it has not ended. -/
def State.runTransaction : List Edge → State → Option State
  | [], _ => none
  | e :: es, s => if (s.edge e).phase = .idle then some (s.edge e) else State.runTransaction es (s.edge e)

/-- An edge without reset at which the host answers no handshake other than as `h` says (R219). -/
def Edge.agreesWith (h : HostAnswers) (e : Edge) : Bool :=
  !e.pins.rst
    && (!e.pins.tsValid || h.ts == some e.pins.tsData)
    && (!e.pins.rspReady || h.acceptsFrame)
    && (!e.pins.stsReady || h.acceptsStatus)

/-- An edge without reset at which nothing is held up: every handshake answered and every phase's work done. -/
def Edge.eager (e : Edge) : Bool :=
  !e.pins.rst && e.pins.tsValid && e.pins.rspReady && e.pins.stsReady && e.done

end Sys2Proof.Machine
end

