-- ==== Sys2Proof/Safety.lean ====
section
/-! DEFINITION. What the claims speak of: the invariant of a transaction, the events of a transaction, agreement of
two states on all but the hidden registers. -/

namespace Sys2Proof.Machine

/-! ### Events -/

def Event.isReq : Event → Bool
  | .req _ => true
  | _ => false

def Event.isTs : Event → Bool
  | .ts _ => true
  | _ => false

def Event.isRsp : Event → Bool
  | .rsp _ _ => true
  | _ => false

def Event.isSts : Event → Bool
  | .sts _ => true
  | _ => false

/-- Every status byte transferred is 0x00 or 0x01 (R187). -/
def Event.statusLegal : Event → Bool
  | .sts b => isStatus b
  | _ => true

/-! ### Requests -/

/-- The row of a SET, in range or not (R184, R188). -/
def isSetInstr : Instr → Bool
  | .set _ _ _ => true
  | _ => false

/-- The two MALFORMED rows. -/
def isMalformedInstr : Instr → Bool
  | .malformedBadChecksum _ _ _ _ => true
  | .malformedBadOpcode _ => true
  | _ => false

/-- An accepted SET: one whose variable id selects a slot (R22, R41). -/
def writesSlot : Instr → Bool
  | .set var _ _ => (slotIndex var).isSome
  | _ => false

/-- The host answers every handshake that request's transaction has (R188, R192, R219). -/
def HostAnswers.complete (h : HostAnswers) : Instr → Bool
  | .query => h.acceptsFrame && h.acceptsStatus
  | .set _ _ _ => h.ts.isSome && h.acceptsStatus
  | .malformedBadChecksum _ _ _ _ => h.acceptsStatus
  | .malformedBadOpcode _ => h.acceptsStatus

/-- Requests one after the other, each a whole transaction (R51). -/
def runRequests : List Instr → State → Out
  | [], s => .next s
  | i :: is, s =>
    match exec i s with
    | .next s' => runRequests is s'
    | .fault f => .fault f
    | .refused r => .refused r

/-- The decoder with the opcode check before the token check: R66 says the order never changes a result. -/
def decodeOpcodeFirst (c : List Byte → Checksum) (w : ReqWord) : Instr :=
  if reqOpcode w = opSet then
    if c (setPayload (reqVar w) (reqSender w) (reqValue w)) ≠ reqClaimed w then
      .malformedBadChecksum (reqClaimed w) (reqVar w) (reqSender w) (reqValue w)
    else .set (reqVar w) (reqSender w) (reqValue w)
  else if w = queryWord then .query
  else .malformedBadOpcode w

/-! ### The invariant -/

/-- What PHASE says about the other registers (R190), with R187 on the record of transfers: the phases of a SET hold a
SET in REQ, those of a QUERY the token, REPORT_SEND the whole frame of the table, STATUS a status byte. -/
structure State.Inv (s : State) : Prop where
  trace_status : ∀ e ∈ s.trace, e.statusLegal = true
  set_phases : s.phase = .tsWait ∨ s.phase = .write → isSetInstr (decodeWord s.req) = true
  query_phases : s.phase = .reportBuild ∨ s.phase = .reportSend → decodeWord s.req = .query
  frame_built : s.phase = .reportSend → s.rspbuf = encodeReport s.slots
  status_legal : s.phase = .status → isStatus s.stsreg = true

/-! ### Agreement on all but the hidden registers -/

/-- The two states agree on everything a host can see or set, and on the model's own record: SLOT, PHASE, the
transfers and labels so far, the host's side. They may differ in REQ, TSREG, STSREG, RSPBUF, BYTECNT and the
accumulators. -/
structure State.SameButHidden (s t : State) : Prop where
  slots : s.slots = t.slots
  phase : s.phase = t.phase
  trace : s.trace = t.trace
  labels : s.labels = t.labels
  host : s.host = t.host
  inbox : s.inbox = t.inbox

/-- Two outcomes agree: next states that agree on all but the hidden registers, or the same stop. -/
def Agree : Out → Out → Prop
  | .next s, .next t => s.SameButHidden t
  | .fault f, .fault g => f = g
  | .refused q, .refused r => q = r
  | _, _ => False

end Sys2Proof.Machine
end

