-- ==== Sys2Proof/Certificates/Slice0/Obligations.lean ====
section
/-! DEFINITION. The statements about DPCORE for the provers, each from the numbered rules its docstring cites. Where a
checksum function is an argument `c`, the statement holds for every candidate, the machine's own `ck` among them. -/

open Sys2Proof Sys2Proof.Machine

/-! ### Decoding and encoding -/

/-- R61, R62, R63, R122: decoding the bytes of any well-formed request gives that request back, whatever `CK` is.
The statement is the model's own, from those rules. -/
def Obligations.DecodeReversesEncode : Prop :=
  ∀ (c : List Byte → Checksum) (i : Instr), i.wfWith c = true → decodeWith c (encodeWith c i) = .ok i

/-- R60, R67: each byte sequence the decoder accepts is the encoding of the one well-formed request it answers, so no
bit of a request is ignored. -/
def Obligations.EncodeReversesDecode : Prop :=
  ∀ (c : List Byte → Checksum) (p : List Byte) (i : Instr),
    decodeWith c p = .ok i → encodeWith c i = p ∧ i.wfWith c = true

/-- R121, R127: the decoder answers a request for every 8 bytes and refuses every other length as FRAMING. -/
def Obligations.DecoderRefusesOnlyOtherLengths : Prop :=
  ∀ (c : List Byte → Checksum) (p : List Byte),
    if p.length = 8 then ∃ i, decodeWith c p = .ok i else decodeWith c p = .error .framing

/-- The word view of a request, which 30_encoding.md marks as its own inference (R63): "A decoder may read the request
as the word `W = LE64(P[0..7])". -/
def Obligations.WordViewAgreesWithBytes : Prop :=
  ∀ (p0 p1 p2 p3 p4 p5 p6 p7 : Byte),
    let p := [p0, p1, p2, p3, p4, p5, p6, p7]
    let w := le64 p
    w.toNat = p0.toNat + 2 ^ 8 * p1.toNat + 2 ^ 16 * p2.toNat + 2 ^ 24 * p3.toNat + 2 ^ 32 * p4.toNat
        + 2 ^ 40 * p5.toNat + 2 ^ 48 * p6.toNat + 2 ^ 56 * p7.toNat ∧
      (∀ k : Fin 8, p[k] = w.extractLsb' (8 * k.val) 8) ∧
      (p = queryToken ↔ w = 0x4B4F756F79657241) ∧
      reqClaimed w = le32 p0 p1 p2 p3 ∧ reqClaimed w = w.extractLsb' 0 32 ∧
      reqOpcode w = p4 ∧ reqOpcode w = w.extractLsb' 32 8 ∧
      reqVar w = p5 ∧ reqVar w = w.extractLsb' 40 8 ∧
      reqSender w = p6 ∧ reqSender w = w.extractLsb' 48 8 ∧
      reqValue w = p7 ∧ reqValue w = w.extractLsb' 56 8 ∧
      decode p = .ok (decodeWord w) ∧
      decodeTableWord 64 w.toNat = some (decodeWord w)

/-- R60, R61, R62, R65, R122: which request a word is, class by class. -/
def Obligations.EachWordHasOneClass : Prop :=
  ∀ (c : List Byte → Checksum) (w : ReqWord),
    decodeWordWith c w =
      if w = queryWord then .query
      else if reqOpcode w ≠ opSet then .malformedBadOpcode w
      else if c (setPayload (reqVar w) (reqSender w) (reqValue w)) ≠ reqClaimed w then
        .malformedBadChecksum (reqClaimed w) (reqVar w) (reqSender w) (reqValue w)
      else .set (reqVar w) (reqSender w) (reqValue w)

/-- QUERY and SET are disjoint, and the order of the two checks never changes a result: an inference that 30_encoding.md
marks as its own (R66), "The QUERY and SET classes are disjoint". -/
def Obligations.QueryAndSetAreDisjoint : Prop :=
  reqOpcode queryWord = 0x6F ∧
    ∀ (c : List Byte → Checksum) (w : ReqWord),
      ¬ (w = queryWord ∧ reqOpcode w = opSet) ∧ decodeOpcodeFirst c w = decodeWordWith c w

/-- How many of the 2^64 requests decode as QUERY, as SET and as MALFORMED, whatever `CK` is: an inference that
41_decode.md marks as its own (R127), "Exactly one request decodes as `Query`". -/
def Obligations.RequestCounts : Prop :=
  ∀ c : List Byte → Checksum,
    Set.ncard {w : ReqWord | decodeWordWith c w = .query} = 1 ∧
      Set.ncard {w : ReqWord | isSetInstr (decodeWordWith c w) = true} = 2 ^ 24 ∧
      Set.ncard {w : ReqWord | isMalformedInstr (decodeWordWith c w) = true} = 2 ^ 64 - 2 ^ 24 - 1

/-- R122, R123, R125, R126 on words written out from the spec (95_test_vectors.md V2): the token, a near token, the
§8 invalid input, and, where `CK` has CK_SMALL_ADLER, a SET, its checksum off by one, and an id out of range. -/
def Obligations.SpecWordsDecode : Prop :=
  decode [0x41, 0x72, 0x65, 0x79, 0x6F, 0x75, 0x4F, 0x4B] = .ok .query ∧
    decode [0x41, 0x72, 0x65, 0x79, 0x6F, 0x75, 0x4F, 0x6B] = .ok (.malformedBadOpcode 0x6B4F756F79657241) ∧
    decode [0x31, 0x32, 0x33, 0x34, 0x35, 0x36, 0x37, 0x38] = .ok (.malformedBadOpcode 0x3837363534333231) ∧
    ∀ c, CkSmallAdler c →
      decodeWith c [0xFE, 0x00, 0xDE, 0x03, 0xF1, 0x03, 0x04, 0x05] = .ok (.set 3 4 5) ∧
        decodeWith c [0xFF, 0x00, 0xDE, 0x03, 0xF1, 0x03, 0x04, 0x05] =
          .ok (.malformedBadChecksum 0x03DE00FF 3 4 5) ∧
        decodeWith c [0x32, 0x01, 0x88, 0x04, 0xF1, 0x40, 0x00, 0x00] = .ok (.set 64 0 0)

/-- R245, R124: a request failing both decoder checks is BAD_OPCODE, and one with a wrong checksum and an id out of
range is BAD_CHECKSUM and reads no timestamp. -/
def Obligations.FirstFailingCheckDecides : Prop :=
  ∀ (c : List Byte → Checksum) (w : ReqWord), w ≠ queryWord →
    c (setPayload (reqVar w) (reqSender w) (reqValue w)) ≠ reqClaimed w →
      (reqOpcode w ≠ opSet → decodeWordWith c w = .malformedBadOpcode w) ∧
        (reqOpcode w = opSet → 64 ≤ (reqVar w).toNat →
          decodeWordWith c w =
              .malformedBadChecksum (reqClaimed w) (reqVar w) (reqSender w) (reqValue w) ∧
            ∀ s s', exec (decodeWordWith c w) s = .next s' →
              s'.trace.filter Event.isTs = s.trace.filter Event.isTs)

/-! ### The checksum -/

/-- R104, whose numbers are the spec's own inference (log entries 2 and 13): on all-zero inputs the machine's `CK`
agrees with Adler-32, with the two values and the report bytes it gives. -/
def Obligations.ChecksumOfZeros : Prop :=
  (∀ n, ck (zeros n) = adler32 (zeros n)) ∧
    ck (zeros 4) = 0x00040001 ∧ ck (zeros 256) = 0x01000001 ∧
    payload State.reset.slots = zeros 256 ∧
    (encodeReport State.reset.slots).toList.take 4 = [0x01, 0x00, 0x00, 0x01]

/-- R107: the recurrence of Adler-32 byte by byte, its value on the empty sequence, and its closed form on zeros. -/
def Obligations.AdlerRecurrence : Prop :=
  adler32 [] = 0x00000001 ∧
    (∀ n, adler32 (zeros n) = BitVec.ofNat 32 (n % 65521 * 65536 + 1)) ∧
    ∀ (bs : List Byte) (x : Byte),
      let a := ((adler32 bs).extractLsb' 0 16).toNat
      let b := ((adler32 bs).extractLsb' 16 16).toNat
      let a' := (a + x.toNat) % 65521
      adler32 (bs ++ [x]) = BitVec.ofNat 32 ((b + a') % 65521 * 65536 + a')

/-- An inference that 40_checksum.md marks as its own (R111): under CK_SMALL_ADLER, the closed form of the checksum of
four bytes, its bounds, a SET payload's, and the example. -/
def Obligations.SmallAdlerClosedForm : Prop :=
  ∀ c : List Byte → Checksum, CkSmallAdler c →
    (∀ p0 p1 p2 p3 : Byte,
      let a := 1 + p0.toNat + p1.toNat + p2.toNat + p3.toNat
      let b := 4 + 4 * p0.toNat + 3 * p1.toNat + 2 * p2.toNat + p3.toNat
      (c [p0, p1, p2, p3]).toNat = b * 65536 + a ∧ a ≤ 1021 ∧ b ≤ 2554) ∧
    (∀ v n x : Byte,
      let a := 242 + v.toNat + n.toNat + x.toNat
      let b := 968 + 3 * v.toNat + 2 * n.toNat + x.toNat
      (c (setPayload v n x)).toNat = b * 65536 + a ∧ 242 ≤ a ∧ a ≤ 1007 ∧ 968 ≤ b ∧ b ≤ 2498) ∧
    c (setPayload 3 4 5) = 0x03DE00FE ∧
    encodeWith c (.set 3 4 5) = [0xFE, 0x00, 0xDE, 0x03, 0xF1, 0x03, 0x04, 0x05]

/-- An inference that 40_checksum.md marks as its own (R112): under CK_SMALL_ADLER the claimed checksum of every SET
lies in the ranges, a request with opcode 0xF1 outside them is BAD_CHECKSUM, and for every `CK` exactly one claimed
checksum is accepted for each payload, so exactly 2^24 requests are SETs. -/
def Obligations.ClaimedChecksumOfASet : Prop :=
  (∀ c : List Byte → Checksum, CkSmallAdler c → ∀ w : ReqWord, reqOpcode w = opSet →
    let inRange := 242 ≤ (w.extractLsb' 0 16).toNat ∧ (w.extractLsb' 0 16).toNat ≤ 1007 ∧
      968 ≤ (w.extractLsb' 16 16).toNat ∧ (w.extractLsb' 16 16).toNat ≤ 2498
    (isSetInstr (decodeWordWith c w) = true → inRange) ∧
      (¬ inRange → decodeWordWith c w =
        .malformedBadChecksum (reqClaimed w) (reqVar w) (reqSender w) (reqValue w))) ∧
  (∀ (c : List Byte → Checksum) (v n x : Byte),
    ∃! k : Checksum, decodeWith c (bytesLE32 k ++ setPayload v n x) = .ok (.set v n x)) ∧
  (∀ c : List Byte → Checksum, Set.ncard {w : ReqWord | isSetInstr (decodeWordWith c w) = true} = 2 ^ 24)

/-- R33, R101, R109: a computation of the engine, fed byte by byte from any accumulators, gives `CK` of the bytes and
touches nothing but the accumulators, whose shape is the model's (log entry 11). -/
def Obligations.EngineComputesChecksum : Prop :=
  ∀ (s : State) (bs : List Byte),
    (bs.foldl State.ckFeed s.ckStart).ckResult = ck bs ∧
      { bs.foldl State.ckFeed s.ckStart with ckAcc := s.ckAcc } = s

/-! ### The report -/

/-- R70: the record of a slot, and where each of its bytes stands in the frame, whatever `CK` is. -/
def Obligations.RecordBytesInFrame : Prop :=
  ∀ (c : List Byte → Checksum) (t : Vector Slot Config.nSlots) (i : Fin Config.nSlots),
    record t[i] = [t[i].ts.extractLsb' 0 8, t[i].ts.extractLsb' 8 8, t[i].snd, t[i].val] ∧
      (encodeReportWith c t).toList[4 + 4 * i.val]? = some (t[i].ts.extractLsb' 0 8) ∧
      (encodeReportWith c t).toList[5 + 4 * i.val]? = some (t[i].ts.extractLsb' 8 8) ∧
      (encodeReportWith c t).toList[6 + 4 * i.val]? = some t[i].snd ∧
      (encodeReportWith c t).toList[7 + 4 * i.val]? = some t[i].val

/-- An inference that 43_report.md marks as its own (R163): every frame's checksum field is the checksum of its own
payload, for every table and every `CK`, and the frame a QUERY transfers is such a frame. The second part names that
frame as RSPBUF after the transaction: that RSPBUF still holds it is the model's choice (log entry 24). -/
def Obligations.FramesAreSelfConsistent : Prop :=
  (∀ (c : List Byte → Checksum) (t : Vector Slot Config.nSlots),
    frameChecksum (encodeReportWith c t) = c (framePayload (encodeReportWith c t))) ∧
  ∀ s s' : State, exec .query s = .next s' →
    frameChecksum s'.rspbuf = ck (framePayload s'.rspbuf) ∧
      s'.trace = s.trace ++ (.req queryWord :: frameEvents s'.rspbuf 0 ++ [.sts 1])

/-- An inference that 43_report.md marks as its own (R167): a host recovers every slot from a frame, and two tables
with the same frame are the same table. -/
def Obligations.FrameReadsBackTheTable : Prop :=
  (∀ (t : Vector Slot Config.nSlots) (i : Fin Config.nSlots), readBack (encodeReport t) i = t[i]) ∧
    ∀ t u : Vector Slot Config.nSlots, encodeReport t = encodeReport u ↔ t = u

/-- R164, R215: a frame is 260 response transfers in offset order, with `rsp_last` on `F[259]` and on no other byte. -/
def Obligations.FrameIsTransferredInOrder : Prop :=
  ∀ f : Vector Byte Config.rspLen,
    (frameEvents f 0).length = 260 ∧
      ∀ k : Fin Config.rspLen, (frameEvents f 0)[k.val]? = some (.rsp f[k] (decide (k.val = 259)))

/-! ### The slot register file -/

/-- R41: ids 0..63 select the slot of their own number, ids 64..255 select none and alias none. -/
def Obligations.VariableIdsSelectSlots : Prop :=
  ∀ v : Byte,
    (∀ h : v.toNat ≤ 63, slotIndex v = some ⟨v.toNat, Nat.lt_succ_of_le h⟩) ∧
      (64 ≤ v.toNat → slotIndex v = none ∧
        ∀ (snd val : Byte) (t : Timestamp) (s : State), (s.tableSet v snd val t).2.slots = s.slots)

/-- R141, R142: the table write. -/
def Obligations.TableWriteWritesOneSlot : Prop :=
  ∀ (v snd val : Byte) (t : Timestamp) (s : State),
    (v.toNat < 64 →
      (s.tableSet v snd val t).1 = true ∧
        { (s.tableSet v snd val t).2 with slots := s.slots } = s ∧
        ∀ i : Fin Config.nSlots, (s.tableSet v snd val t).2.slots[i] =
          if i.val = v.toNat then { ts := t, snd := snd, val := val } else s.slots[i]) ∧
    (64 ≤ v.toNat → s.tableSet v snd val t = (false, s))

/-- R144: the second of two writes to one slot is all that remains, whichever timestamp is larger. -/
def Obligations.LastWriteWins : Prop :=
  ∀ (v a b a' b' : Byte) (t t' : Timestamp) (s : State),
    ((s.tableSet v a b t).2.tableSet v a' b' t').2 = (s.tableSet v a' b' t').2

/-! ### What each request does -/

/-- R182: QUERY. The hidden registers it uses, which no rule reads again before they are set, are left at some value
(R27, R30, R32, R33, R36); HiddenRegistersAfterRequests states what the model leaves in them. That TSREG
holds still over the transaction is the model's choice (log entry 24). -/
def Obligations.QueryReportsTheTable : Prop :=
  decodeWord queryWord = .query ∧
  ∀ s : State, s.phase = .idle → s.host.acceptsFrame = true → s.host.acceptsStatus = true →
    ∃ (req : ReqWord) (buf : Vector Byte Config.rspLen) (count : Fin Config.rspLen) (idle : Byte) (acc : List Byte),
      exec .query s = .next { s with
      req := req
      rspbuf := buf
      bytecnt := count
      stsreg := idle
      ckAcc := acc
      trace := s.trace ++ (.req queryWord :: frameEvents (encodeReport s.slots) 0 ++ [.sts 1]) }

/-- R183: SET, for every variable id. Its request word has opcode 0xF1 and its own payload's checksum. One timestamp
is read in either case, and only an id below 64 writes its slot. The hidden registers it uses (R27, R30, R31, R33) and
the model's own labels are left at some value here; HiddenRegistersAfterRequests and RejectionsAreLabelled state them.
That RSPBUF and BYTECNT hold still over the transaction is the model's (log entries 24 and 20; R32 and U12 leave
RSPBUF open). -/
def Obligations.SetWritesItsSlotWhenInRange : Prop :=
  ∀ (v snd val : Byte) (t : Timestamp) (s : State),
    s.phase = .idle → s.host.ts = some t → s.host.acceptsStatus = true →
    ∃ (w req : ReqWord) (tsreg : Timestamp) (idle : Byte) (acc : List Byte) (labels : List Cause),
      reqClaimed w = ck [0xF1, v, snd, val] ∧ reqOpcode w = 0xF1 ∧ reqVar w = v ∧ reqSender w = snd ∧
      reqValue w = val ∧ decodeWord w = .set v snd val ∧
      exec (.set v snd val) s = .next { s with
        slots := if h : v.toNat < Config.nSlots then s.slots.set v.toNat { ts := t, snd := snd, val := val } h
          else s.slots
        req := req
        tsreg := tsreg
        stsreg := idle
        ckAcc := acc
        labels := labels
        trace := s.trace ++ [.req w, .ts t, .sts (if v.toNat < 64 then 1 else 0)] }

/-- R185: MALFORMED with cause BAD_OPCODE, whatever the host would answer to the other handshakes. The hidden
registers it uses (R27, R30, R33, R124) and the model's own labels are left at some value here. That TSREG, RSPBUF and
BYTECNT hold still over the transaction is the model's (log entries 24 and 20; R32 and U12 leave RSPBUF open). -/
def Obligations.BadOpcodeAnswersStatusZero : Prop :=
  (∀ w : ReqWord, w ≠ queryWord → reqOpcode w ≠ 0xF1 → decodeWord w = .malformedBadOpcode w) ∧
  ∀ (w : ReqWord) (s : State), s.phase = .idle → s.host.acceptsStatus = true →
    ∃ (req : ReqWord) (idle : Byte) (acc : List Byte) (labels : List Cause),
      exec (.malformedBadOpcode w) s = .next { s with
      req := req
      stsreg := idle
      ckAcc := acc
      labels := labels
      trace := s.trace ++ [.req w, .sts 0] }

/-- R186: MALFORMED with cause BAD_CHECKSUM; nothing is written even when the id is in range. The hidden
registers it uses (R27, R30, R33) and the model's own labels are left at some value here. That TSREG, RSPBUF and
BYTECNT hold still over the transaction is the model's (log entries 24 and 20; R32 and U12 leave RSPBUF open). -/
def Obligations.BadChecksumAnswersStatusZero : Prop :=
  ∀ (k : Checksum) (v snd val : Byte) (s : State), s.phase = .idle → s.host.acceptsStatus = true →
    ∃ (w req : ReqWord) (idle : Byte) (acc : List Byte) (labels : List Cause),
      reqClaimed w = k ∧ reqOpcode w = 0xF1 ∧ reqVar w = v ∧ reqSender w = snd ∧ reqValue w = val ∧
      (k ≠ ck [0xF1, v, snd, val] → decodeWord w = .malformedBadChecksum k v snd val) ∧
      exec (.malformedBadChecksum k v snd val) s = .next { s with
        req := req
        stsreg := idle
        ckAcc := acc
        labels := labels
        trace := s.trace ++ [.req w, .sts 0] }

/-- What every request leaves alone: the frame of R182, R183, R185, R186, R47, R49. That RSPBUF, BYTECNT and TSREG hold
still between transactions is the model's (log entries 20 and 24). -/
def Obligations.RequestsLeaveTheRestAlone : Prop :=
  ∀ (i : Instr) (s s' : State), exec i s = .next s' →
    s'.phase = .idle ∧ s'.host = s.host ∧ s'.inbox = s.inbox ∧ s.trace <+: s'.trace ∧ s.labels <+: s'.labels ∧
      match i with
      | .query => s'.slots = s.slots ∧ s'.tsreg = s.tsreg ∧ s'.labels = s.labels
      | .set v _ _ =>
        s'.rspbuf = s.rspbuf ∧ s'.bytecnt = s.bytecnt ∧
          (v.toNat < 64 → s'.labels = s.labels) ∧
          ∀ j : Fin Config.nSlots, j.val ≠ v.toNat → s'.slots[j] = s.slots[j]
      | .malformedBadChecksum _ _ _ _ =>
        s'.slots = s.slots ∧ s'.tsreg = s.tsreg ∧ s'.rspbuf = s.rspbuf ∧ s'.bytecnt = s.bytecnt
      | .malformedBadOpcode _ =>
        s'.slots = s.slots ∧ s'.tsreg = s.tsreg ∧ s'.rspbuf = s.rspbuf ∧ s'.bytecnt = s.bytecnt

/-- The transfers of a transaction, counted by channel: an inference that 44_engine.md marks as its own (R188), "exactly
one request transfer and exactly one status transfer". -/
def Obligations.TransferCounts : Prop :=
  ∀ (i : Instr) (s : State), s.phase = .idle → s.host.complete i = true →
    ∃ (s' : State) (ev : List Event), exec i s = .next s' ∧ s'.trace = s.trace ++ ev ∧
      ev.countP Event.isReq = 1 ∧ ev.countP Event.isSts = 1 ∧
      (i = .query → ev.countP Event.isRsp = 260) ∧ (i ≠ .query → ev.countP Event.isRsp = 0) ∧
      (isSetInstr i = true → ev.countP Event.isTs = 1) ∧ (isSetInstr i = false → ev.countP Event.isTs = 0)

/-- R187, R191: the transfers of a transaction, in order, with the status byte each request gets. -/
def Obligations.TransferOrder : Prop :=
  ∀ (i : Instr) (s s' : State), exec i s = .next s' →
    match i with
    | .query =>
      s'.trace = s.trace ++ [.req (encodeWord i)] ++ frameEvents (encodeReport s.slots) 0 ++ [.sts 1]
    | .set v _ _ =>
      ∃ t, s.host.ts = some t ∧
        s'.trace = s.trace ++ [.req (encodeWord i)] ++ [.ts t] ++ [.sts (if v.toNat < 64 then 1 else 0)]
    | .malformedBadChecksum _ _ _ _ => s'.trace = s.trace ++ [.req (encodeWord i)] ++ [.sts 0]
    | .malformedBadOpcode _ => s'.trace = s.trace ++ [.req (encodeWord i)] ++ [.sts 0]

/-- R241: BAD_OPCODE, BAD_CHECKSUM and RANGE give the same status transfer, and only RANGE reads a timestamp. -/
def Obligations.RejectionsLookAlike : Prop :=
  ∀ (w : ReqWord) (k : Checksum) (u v n x : Byte) (t : Timestamp) (s : State), 64 ≤ v.toNat →
    s.phase = .idle → s.host.ts = some t → s.host.acceptsStatus = true →
    ∃ s1 s2 s3 e1 e2 e3,
      exec (.malformedBadOpcode w) s = .next s1 ∧ s1.trace = s.trace ++ e1 ∧
        exec (.malformedBadChecksum k u n x) s = .next s2 ∧ s2.trace = s.trace ++ e2 ∧
        exec (.set v n x) s = .next s3 ∧ s3.trace = s.trace ++ e3 ∧
      e1.filter Event.isSts = [.sts 0] ∧ e2.filter Event.isSts = [.sts 0] ∧ e3.filter Event.isSts = [.sts 0] ∧
      e1.filter Event.isTs = [] ∧ e2.filter Event.isTs = [] ∧ e3.filter Event.isTs = [.ts t]

/-- R240: the internal label each rejected request leaves in the model's own record (log entry 16), in no port. -/
def Obligations.RejectionsAreLabelled : Prop :=
  ∀ (i : Instr) (s s' : State), exec i s = .next s' →
    s'.labels = s.labels ++
      match i with
      | .query => []
      | .set v _ _ => if v.toNat < 64 then [] else [.range]
      | .malformedBadChecksum _ _ _ _ => [.badChecksum]
      | .malformedBadOpcode _ => [.badOpcode]

/-! ### Stops -/

/-- R220: the two refusals of the boundary; at the ports neither can arise: each word the request port carries is a
request, and `req_ready` is 0 while a transaction is in progress. -/
def Obligations.BoundaryRefusals : Prop :=
  (∀ (i : Instr) (s : State), s.phase ≠ .idle → exec i s = .refused .requestWhileBusy ∧
    ∀ d : IdleData, (s.outputs d).reqReady = false) ∧
  (∀ w : ReqWord, decode (bytesLE64 w) = .ok (decodeWord w)) ∧
    ∀ (p : List Byte) (a : HostAnswers) (rest : List HostMove) (s : State),
      s.phase = .idle → s.inbox = .request p a :: rest → p.length ≠ 8 → step s = .refused .framing

/-- R192, R219, U4: a transaction whose host leaves a handshake unanswered has no step. -/
def Obligations.UnansweredHandshakesHang : Prop :=
  ∀ s : State, s.phase = .idle →
    (s.host.acceptsFrame = false → exec .query s = .fault .hangReportSend) ∧
    (s.host.acceptsFrame = true → s.host.acceptsStatus = false → exec .query s = .fault .hangStatus) ∧
    (∀ v n x, s.host.ts = none → exec (.set v n x) s = .fault .hangTsWait) ∧
    (∀ v n x t, s.host.ts = some t → s.host.acceptsStatus = false → exec (.set v n x) s = .fault .hangStatus) ∧
    (∀ k v n x, s.host.acceptsStatus = false → exec (.malformedBadChecksum k v n x) s = .fault .hangStatus) ∧
    (∀ w, s.host.acceptsStatus = false → exec (.malformedBadOpcode w) s = .fault .hangStatus)

/-- R244: no 8 bytes stop DPCORE: with a host that answers, every request ends in IDLE with the next one due. -/
def Obligations.NoRequestIsFatal : Prop :=
  ∀ (s : State) (p : List Byte) (t : Timestamp) (rest : List HostMove), s.phase = .idle → p.length = 8 →
    s.inbox = .request p { ts := some t, acceptsFrame := true, acceptsStatus := true } :: rest →
    ∃ s', step s = .next s' ∧ s'.phase = .idle ∧ s'.inbox = rest

/-! ### The step -/

/-- R180, R192, R213: when the bytes offered decode to `i`, the step runs `i` with the host's answers for it. -/
def Obligations.StepRunsTheDecodedRequest : Prop :=
  ∀ (s : State) (p : List Byte) (a : HostAnswers) (rest : List HostMove) (i : Instr),
    s.phase = .idle → s.inbox = .request p a :: rest → decode p = .ok i →
    step s = exec i { s with inbox := rest, host := a }

/-- R213, R253, R260, R261: the other steps: waiting in IDLE, a transaction in progress before the next request, and
reset in any phase. R253 says of the wait that DPCORE sits in IDLE and SLOT keeps its content; that the step waits
while nothing is offered is log entry 5, and that the hidden registers hold still meanwhile is the model's (log
entries 11, 20, 24 and 25). That the step goes on with a transaction in progress is the model's (log entry 17), as are
the values reset leaves in the hidden registers (log entry 3) and the record it keeps (log entry 16). -/
def Obligations.OtherSteps : Prop :=
  (∀ s : State, s.phase = .idle → s.inbox = [] → step s = .next s) ∧
    (∀ s : State, s.phase ≠ .idle → (∀ rest, s.inbox ≠ .reset :: rest) → step s = resume s) ∧
    ∀ (s : State) (rest : List HostMove), s.inbox = .reset :: rest →
      step s = .next { State.reset with trace := s.trace, labels := s.labels, host := s.host, inbox := rest }

/-- R29: after every step PHASE is IDLE. -/
def Obligations.EveryStepEndsIdle : Prop :=
  ∀ s s' : State, step s = .next s' → s'.phase = .idle

/-- R22: only an accepted SET, or reset, changes a slot, and a SET only its own. That the clocked machine writes the
slot at the edge that ends WRITE is the model's choice (log entry 26). -/
def Obligations.OnlyAcceptedSetsWriteSlots : Prop :=
  (∀ (i : Instr) (s s' : State) (j : Fin Config.nSlots), exec i s = .next s' → s'.slots[j] ≠ s.slots[j] →
    ∃ v n x t, i = .set v n x ∧ v.toNat = j.val ∧ s.host.ts = some t ∧
      s'.slots[j] = { ts := t, snd := n, val := x }) ∧
  ∀ (e : Edge) (s : State) (j : Fin Config.nSlots), (s.edge e).slots[j] ≠ s.slots[j] →
    e.pins.rst = true ∨
      (s.phase = .write ∧ e.done = true ∧ (reqVar s.req).toNat = j.val ∧
        (s.edge e).slots[j] = { ts := s.tsreg, snd := reqSender s.req, val := reqValue s.req })

/-- An inference that 70_reset_and_hazards.md marks as its own (R265), and the source's round-trip property
(95_test_vectors.md E3): the frame that a QUERY transfers after an accepted SET reports it, with every other slot as
it was and a checksum field that validates. -/
def Obligations.QueryReportsTheLastSet : Prop :=
  ∀ (s : State) (v n x : Byte) (t : Timestamp) (h : v.toNat < Config.nSlots), s.phase = .idle →
    s.host = { ts := some t, acceptsFrame := true, acceptsStatus := true } →
    ∃ (s1 s2 : State) (f : Vector Byte Config.rspLen),
      exec (.set v n x) s = .next s1 ∧ exec .query s1 = .next s2 ∧
      s2.trace = s1.trace ++ (.req queryWord :: frameEvents f 0 ++ [.sts 1]) ∧
      readBack f ⟨v.toNat, h⟩ = { ts := t, snd := n, val := x } ∧
      (∀ j : Fin Config.nSlots, j.val ≠ v.toNat → readBack f j = s.slots[j]) ∧
      frameChecksum f = ck (framePayload f)

/-- An inference that 43_report.md marks as its own (R166): two QUERY transactions with no accepted SET between them,
whatever other requests there are, transfer the same frame. That RSPBUF holds that frame after either of them, so that
the two agree there too, is the model's choice (log entry 24). -/
def Obligations.RepeatedQueriesAreIdentical : Prop :=
  ∀ (s s1 s2 s3 : State) (is : List Instr), exec .query s = .next s1 →
    is.all (fun i => !writesSlot i) = true → runRequests is s1 = .next s2 → exec .query s2 = .next s3 →
    s3.rspbuf = s1.rspbuf ∧
      (s3.trace.drop s2.trace.length).filter Event.isRsp = (s1.trace.drop s.trace.length).filter Event.isRsp

/-- An inference that 20_memory.md marks as its own (R50): two SETs alike with one timestamp leave SLOT as one does,
and with another timestamp the slot's `ts` is the new one. -/
def Obligations.RepeatedSetIsIdempotent : Prop :=
  ∀ (s s1 s2 : State) (v n x : Byte) (a : HostAnswers), exec (.set v n x) s = .next s1 →
    exec (.set v n x) { s1 with host := a } = .next s2 →
    (a.ts = s.host.ts → s2.slots = s1.slots) ∧
      ∀ (h : v.toNat < Config.nSlots) (t : Timestamp), a.ts = some t →
        s2.slots[v.toNat] = { ts := t, snd := n, val := x }

/-- R189: a transaction depends on nothing that an earlier one left but SLOT: two idle states with the same table, from
hosts that meet the same duties and, for a SET, give the same timestamp, have the same transfers and the same table,
whatever their hidden registers hold; and the step sees only what `SameButHidden` names. -/
def Obligations.OnlySlotsCarryOver : Prop :=
  (∀ (i : Instr) (s t : State), s.phase = .idle → t.phase = .idle → s.slots = t.slots →
    s.host.acceptsFrame = t.host.acceptsFrame → s.host.acceptsStatus = t.host.acceptsStatus →
    (isSetInstr i = true → s.host.ts = t.host.ts) →
    (∀ s', exec i s = .next s' → ∃ t' ev, exec i t = .next t' ∧ s'.slots = t'.slots ∧
      s'.trace = s.trace ++ ev ∧ t'.trace = t.trace ++ ev)) ∧
  ∀ s t : State, s.phase = .idle → s.SameButHidden t → Agree (step s) (step t)

/-! ### Reset and the invariant -/

/-- R23, R29, R260: the reset state, and the state any edge with `rst = 1` leaves, from any state whatever (so also
from one never reset, R262): every slot `{0, 0, 0}`, PHASE IDLE, no transfer. -/
def Obligations.ResetClearsEverySlot : Prop :=
  State.reset.phase = .idle ∧
    (∀ i : Fin Config.nSlots, State.reset.slots[i] = { ts := 0, snd := 0, val := 0 }) ∧
    ∀ (s : State) (e : Edge), e.pins.rst = true →
      (s.edge e).phase = .idle ∧ (s.edge e).trace = s.trace ∧
        ∀ i : Fin Config.nSlots, (s.edge e).slots[i] = { ts := 0, snd := 0, val := 0 }

/-- R35: the handshake outputs follow PHASE, and their values after reset. -/
def Obligations.HandshakeOutputsFollowPhase : Prop :=
  (∀ (d : IdleData) (s : State),
    ((s.outputs d).reqReady = true ↔ s.phase = .idle) ∧ ((s.outputs d).tsReq = true ↔ s.phase = .tsWait) ∧
      ((s.outputs d).rspValid = true ↔ s.phase = .reportSend) ∧
      ((s.outputs d).stsValid = true ↔ s.phase = .status)) ∧
  (∀ d : IdleData, (State.reset.outputs d).reqReady = true ∧ (State.reset.outputs d).tsReq = false ∧
    (State.reset.outputs d).rspValid = false ∧ (State.reset.outputs d).stsValid = false) ∧
  ∀ (d : IdleData) (s : State), (s.phase ≠ .reportSend →
      (s.outputs d).rspData = d.rspData ∧ (s.outputs d).rspLast = d.rspLast) ∧
    (s.phase ≠ .status → (s.outputs d).stsData = d.stsData)

/-- The invariant of R187 and R190 holds after reset. -/
def Obligations.InvariantAtReset : Prop := State.reset.Inv

/-- The invariant of R187 and R190 is kept by every step. -/
def Obligations.InvariantKeptByStep : Prop :=
  ∀ s s' : State, s.Inv → step s = .next s' → s'.Inv

/-- The invariant of R187 and R190 is kept by every rising edge of the clock, whatever the host drives. -/
def Obligations.InvariantKeptByEdge : Prop :=
  ∀ (s : State) (e : Edge), s.Inv → (s.edge e).Inv

/-! ### The clocked machine -/

/-- R190: the phase table, row by row: what leaves a phase, and to where, and that DECODE, WRITE and REPORT_BUILD wait
for nothing outside DPCORE. STSREG is left at some value after its transfer (R27; log entry 25). These things here are
the model's: a hidden register keeps still at every edge and transfer that does not use it, REQ, TSREG and RSPBUF (log
entry 24, DESIGN CHOICE), STSREG until the status is decided (log entry 25, DESIGN CHOICE), BYTECNT after the last
byte (log entry 20, DEDUCED) and the accumulators between computations (log entry 11, DESIGN CHOICE); SLOT, STSREG,
RSPBUF and the accumulators keep still at the edges before DECODE, WRITE or REPORT_BUILD ends (log entry 26, DESIGN
CHOICE); and a request offered at the first edge after reset is taken there (log entry 27, DEDUCED). -/
def Obligations.PhaseTable : Prop :=
  ∀ (s : State) (e : Edge), e.pins.rst = false →
    (s.phase = .idle → s.edge e = if e.pins.reqValid then
      { s with req := e.pins.reqData, phase := .decode, trace := s.trace ++ [.req e.pins.reqData] } else s) ∧
    (s.phase = .decode → e.done = false → s.edge e = s) ∧
    (s.phase = .decode → e.done = true → (s.edge e).slots = s.slots ∧ (s.edge e).trace = s.trace ∧
      match decodeWord s.req with
      | .query => (s.edge e).phase = .reportBuild
      | .set _ _ _ => (s.edge e).phase = .tsWait
      | .malformedBadChecksum _ _ _ _ => (s.edge e).phase = .status ∧ (s.edge e).stsreg = 0
      | .malformedBadOpcode _ => (s.edge e).phase = .status ∧ (s.edge e).stsreg = 0) ∧
    (s.phase = .tsWait → s.edge e = if e.pins.tsValid then
      { s with tsreg := e.pins.tsData, phase := .write, trace := s.trace ++ [.ts e.pins.tsData] } else s) ∧
    (s.phase = .write → e.done = false → s.edge e = s) ∧
    (s.phase = .write → e.done = true → (s.edge e).phase = .status ∧
      (s.edge e).stsreg = (if (reqVar s.req).toNat < 64 then 1 else 0) ∧
      (s.edge e).slots = (s.tableSet (reqVar s.req) (reqSender s.req) (reqValue s.req) s.tsreg).2.slots) ∧
    (s.phase = .reportBuild → e.done = false → s.edge e = s) ∧
    (s.phase = .reportBuild → e.done = true → (s.edge e).phase = .reportSend ∧
      (s.edge e).rspbuf = encodeReport s.slots ∧ (s.edge e).bytecnt.val = 0) ∧
    (s.phase = .reportSend → e.pins.rspReady = false → s.edge e = s) ∧
    (s.phase = .reportSend → e.pins.rspReady = true →
      (s.edge e).trace = s.trace ++ [.rsp s.rspbuf[s.bytecnt] (decide (s.bytecnt.val = 259))] ∧
      (s.bytecnt.val < 259 → (s.edge e).phase = .reportSend ∧ (s.edge e).bytecnt.val = s.bytecnt.val + 1) ∧
      (s.bytecnt.val = 259 → (s.edge e).phase = .status ∧ (s.edge e).stsreg = 1)) ∧
    (s.phase = .status → ∃ idle : Byte, s.edge e = if e.pins.stsReady then
      { s with phase := .idle, stsreg := idle, trace := s.trace ++ [.sts s.stsreg] } else s) ∧
    (s.phase = .decode ∨ s.phase = .write ∨ s.phase = .reportBuild →
      ∀ p : Pins, p.rst = false → s.edge { e with pins := p } = s.edge e) ∧
    ∀ d : IdleData,
      (s.phase = .idle → (s.outputs d).reqReady = true) ∧ (s.phase = .tsWait → (s.outputs d).tsReq = true) ∧
      (s.phase = .reportSend → (s.outputs d).rspValid = true ∧ (s.outputs d).rspData = s.rspbuf[s.bytecnt] ∧
        (s.outputs d).rspLast = decide (s.bytecnt.val = 259)) ∧
      (s.phase = .status → (s.outputs d).stsValid = true ∧ (s.outputs d).stsData = s.stsreg)

/-- R211, R212: DPCORE keeps an offer and its data unchanged until the transfer or reset. -/
def Obligations.OffersAreHeld : Prop :=
  ∀ (d d' : IdleData) (s : State) (e : Edge), e.pins.rst = false →
    ((s.outputs d).rspValid = true → e.pins.rspReady = false →
      ((s.edge e).outputs d').rspValid = true ∧ ((s.edge e).outputs d').rspData = (s.outputs d).rspData ∧
        ((s.edge e).outputs d').rspLast = (s.outputs d).rspLast) ∧
    ((s.outputs d).stsValid = true → e.pins.stsReady = false →
      ((s.edge e).outputs d').stsValid = true ∧ ((s.edge e).outputs d').stsData = (s.outputs d).stsData)

/-- R213, R214, R48: while a transaction is in progress no request is taken, whatever is offered, and `ts_data` has no
effect outside TS_WAIT. The edge of the status transfer is one of these, and that REQ keeps its content there, where the
transaction is over, is the model's choice (log entry 24). -/
def Obligations.BusyIgnoresOffers : Prop :=
  (∀ (s : State) (e : Edge), s.phase ≠ .idle → e.pins.rst = false → (s.edge e).req = s.req ∧
    (s.edge e).trace.countP Event.isReq = s.trace.countP Event.isReq) ∧
  ∀ (s : State) (e : Edge) (v : Bool) (d : Timestamp), s.phase ≠ .tsWait →
    s.edge { e with pins := { e.pins with tsValid := v, tsData := d } } = s.edge e

/-- R217, R219: DPCORE waits as long as the host takes: however many edges pass without the answer a phase waits for,
nothing changes. That the hidden registers of no use in that phase hold still too is the model's (log entries 11, 20,
24 and 25). -/
def Obligations.WaitsHaveNoTimeLimit : Prop :=
  ∀ (s : State) (es : List Edge), (∀ e ∈ es, e.pins.rst = false) →
    (s.phase = .tsWait → (∀ e ∈ es, e.pins.tsValid = false) → s.edges es = s) ∧
    (s.phase = .reportSend → (∀ e ∈ es, e.pins.rspReady = false) → s.edges es = s) ∧
    (s.phase = .status → (∀ e ∈ es, e.pins.stsReady = false) → s.edges es = s)

/-- R244, R269: when nothing holds it up, every transaction ends, from whatever phase, within 263 edges. -/
def Obligations.EagerTransactionsEnd : Prop :=
  ∀ (s : State) (es : List Edge), s.phase ≠ .idle → (∀ e ∈ es, e.eager = true) → 263 ≤ es.length →
    (State.runTransaction es s).isSome = true

/-- R180, R190, R192: the transaction of a well-formed request is the phase machine's, started by its request
transfer. The hidden registers are part of it: what the model
leaves in them is its own (log entries 11, 20 and 24 to 26). -/
def Obligations.TransactionFollowsThePhases : Prop :=
  ∀ (i : Instr) (s : State), i.wf = true → s.phase = .idle →
    exec i s = resume (s.recvRequest (encodeWord i))

/-- R190, R192: no edge of a transaction changes what the transaction will come to, and the edge that ends it leaves
exactly that. The hidden registers are part of it: what the model
leaves in them is its own (log entries 11, 20 and 24 to 26). -/
def Obligations.EveryEdgeKeepsTheOutcome : Prop :=
  ∀ (s : State) (e : Edge), s.phase ≠ .idle → e.agreesWith s.host = true →
    if (s.edge e).phase = .idle then resume s = .next (s.edge e) else resume (s.edge e) = resume s

/-- R37, R51, R192, R218: however long the phases and the host take (LAT and every stall), a clocked run from the
request transfer to the end of the transaction gives the state of the one atomic step. The hidden registers are part
of it: what the model leaves in them is its own (log entries 11, 20 and 24 to 26). -/
def Obligations.ClockedRunIsOneStep : Prop :=
  ∀ (i : Instr) (s s' : State) (e : Edge) (es : List Edge), i.wf = true → s.phase = .idle →
    e.pins.rst = false → e.pins.reqValid = true → e.pins.reqData = encodeWord i →
    (∀ e' ∈ es, e'.agreesWith s.host = true) →
    State.runTransaction es (s.edge e) = some s' → exec i s = .next s'

/-! ### The hidden registers between transactions -/

/-- What a completed request leaves in REQ, TSREG, RSPBUF and BYTECNT, of which the spec says nothing between
transactions (R32, U12): the model's choice, log entries 20 and 24. -/
def Obligations.HiddenRegistersAfterRequests : Prop :=
  ∀ (i : Instr) (s s' : State), exec i s = .next s' →
    s'.req = encodeWord i ∧
      match i with
      | .query => s'.tsreg = s.tsreg ∧ s'.rspbuf = encodeReport s.slots ∧ s'.bytecnt.val = 259
      | .set _ _ _ => s.host.ts = some s'.tsreg ∧ s'.rspbuf = s.rspbuf ∧ s'.bytecnt = s.bytecnt
      | .malformedBadChecksum _ _ _ _ => s'.tsreg = s.tsreg ∧ s'.rspbuf = s.rspbuf ∧ s'.bytecnt = s.bytecnt
      | .malformedBadOpcode _ => s'.tsreg = s.tsreg ∧ s'.rspbuf = s.rspbuf ∧ s'.bytecnt = s.bytecnt

/-- R27: nothing in DPCORE remembers the status byte after its transfer: whatever STSREG held, the state after the
transfer is the same but for the model's own record of transfers. STSREG is then at its idle value, a free value (log
entry 25), and so it is after every request. -/
def Obligations.StatusByteIsNotRetained : Prop :=
  (∀ (s : State) (e : Edge) (b : Byte), s.phase = .status → e.pins.rst = false → e.pins.stsReady = true →
    s.edge e = { State.edge e { s with stsreg := b } with trace := s.trace ++ [.sts s.stsreg] }) ∧
  ∀ (i : Instr) (s s' : State) (b : Byte), exec i s = .next s' →
    s'.stsreg = Config.stsIdle ∧ exec i { s with stsreg := b } = .next s'
end

