-- ==== Sys2Proof/Laws/Bytes.lean ====
section
/-! SUPPORT. Byte order: the little-endian views invert each other, and a request word's fields are its bytes. -/

namespace Sys2Proof.Machine

@[simp] theorem leNat_nil : leNat [] = 0 := rfl

@[simp] theorem leNat_cons (b : Byte) (bs : List Byte) : leNat (b :: bs) = b.toNat + 256 * leNat bs := rfl

theorem le16_bytesLE16 (v : Timestamp) : le16 (v.extractLsb' 0 8) (v.extractLsb' 8 8) = v := by
  apply BitVec.eq_of_toNat_eq
  have := v.isLt
  simp [le16, BitVec.extractLsb'_toNat, Nat.shiftRight_eq_div_pow]
  omega

theorem le32_bytesLE32 (v : Checksum) :
    le32 (v.extractLsb' 0 8) (v.extractLsb' 8 8) (v.extractLsb' 16 8) (v.extractLsb' 24 8) = v := by
  apply BitVec.eq_of_toNat_eq
  have := v.isLt
  simp [le32, BitVec.extractLsb'_toNat, Nat.shiftRight_eq_div_pow]
  omega

theorem le64_bytesLE64 (w : ReqWord) : le64 (bytesLE64 w) = w := by
  apply BitVec.eq_of_toNat_eq
  have := w.isLt
  simp [le64, bytesLE64, BitVec.extractLsb'_toNat, Nat.shiftRight_eq_div_pow]
  omega

/-- Every byte sequence of length 4 is the bytes of its own number. -/
theorem bytesLE32_le32 (p0 p1 p2 p3 : Byte) : bytesLE32 (le32 p0 p1 p2 p3) = [p0, p1, p2, p3] := by
  have h0 := p0.isLt
  have h1 := p1.isLt
  have h2 := p2.isLt
  have h3 := p3.isLt
  simp only [bytesLE32, List.cons.injEq, and_true]
  refine ⟨?_, ?_, ?_, ?_⟩ <;> apply BitVec.eq_of_toNat_eq <;>
    simp [le32, BitVec.extractLsb'_toNat, Nat.shiftRight_eq_div_pow] <;> omega

theorem le64_toNat (p0 p1 p2 p3 p4 p5 p6 p7 : Byte) :
    (le64 [p0, p1, p2, p3, p4, p5, p6, p7]).toNat = leNat [p0, p1, p2, p3, p4, p5, p6, p7] := by
  have h0 := p0.isLt
  have h1 := p1.isLt
  have h2 := p2.isLt
  have h3 := p3.isLt
  have h4 := p4.isLt
  have h5 := p5.isLt
  have h6 := p6.isLt
  have h7 := p7.isLt
  simp [le64]
  omega

/-- Every byte sequence of length 8 is the bytes of its own request word. -/
theorem bytesLE64_le64 (p0 p1 p2 p3 p4 p5 p6 p7 : Byte) :
    bytesLE64 (le64 [p0, p1, p2, p3, p4, p5, p6, p7]) = [p0, p1, p2, p3, p4, p5, p6, p7] := by
  have h0 := p0.isLt
  have h1 := p1.isLt
  have h2 := p2.isLt
  have h3 := p3.isLt
  have h4 := p4.isLt
  have h5 := p5.isLt
  have h6 := p6.isLt
  have h7 := p7.isLt
  simp only [bytesLE64, List.cons.injEq, and_true]
  refine ⟨?_, ?_, ?_, ?_, ?_, ?_, ?_, ?_⟩ <;> apply BitVec.eq_of_toNat_eq <;>
    rw [BitVec.extractLsb'_toNat, le64_toNat] <;>
    simp [Nat.shiftRight_eq_div_pow] <;> omega

/-- A request word's claimed checksum is the little-endian number of its first four bytes. -/
theorem reqClaimed_eq_le32 (w : ReqWord) :
    reqClaimed w = le32 (w.extractLsb' 0 8) (w.extractLsb' 8 8) (w.extractLsb' 16 8) (w.extractLsb' 24 8) := by
  apply BitVec.eq_of_toNat_eq
  have := w.isLt
  simp [reqClaimed, le32, BitVec.extractLsb'_toNat, Nat.shiftRight_eq_div_pow]
  omega

end Sys2Proof.Machine
end

