-- ==== Sys2Proof/Laws/Events.lean ====
section
/-! SUPPORT. The small lemmas of the event predicates, and the channel of every event of a frame. -/

namespace Sys2Proof.Machine

@[simp] theorem isReq_req (w : ReqWord) : Event.isReq (.req w) = true := rfl
@[simp] theorem isReq_ts (t : Timestamp) : Event.isReq (.ts t) = false := rfl
@[simp] theorem isReq_rsp (b : Byte) (l : Bool) : Event.isReq (.rsp b l) = false := rfl
@[simp] theorem isReq_sts (b : Byte) : Event.isReq (.sts b) = false := rfl

@[simp] theorem isTs_req (w : ReqWord) : Event.isTs (.req w) = false := rfl
@[simp] theorem isTs_ts (t : Timestamp) : Event.isTs (.ts t) = true := rfl
@[simp] theorem isTs_rsp (b : Byte) (l : Bool) : Event.isTs (.rsp b l) = false := rfl
@[simp] theorem isTs_sts (b : Byte) : Event.isTs (.sts b) = false := rfl

@[simp] theorem isRsp_req (w : ReqWord) : Event.isRsp (.req w) = false := rfl
@[simp] theorem isRsp_ts (t : Timestamp) : Event.isRsp (.ts t) = false := rfl
@[simp] theorem isRsp_rsp (b : Byte) (l : Bool) : Event.isRsp (.rsp b l) = true := rfl
@[simp] theorem isRsp_sts (b : Byte) : Event.isRsp (.sts b) = false := rfl

@[simp] theorem isSts_req (w : ReqWord) : Event.isSts (.req w) = false := rfl
@[simp] theorem isSts_ts (t : Timestamp) : Event.isSts (.ts t) = false := rfl
@[simp] theorem isSts_rsp (b : Byte) (l : Bool) : Event.isSts (.rsp b l) = false := rfl
@[simp] theorem isSts_sts (b : Byte) : Event.isSts (.sts b) = true := rfl

@[simp] theorem statusLegal_req (w : ReqWord) : Event.statusLegal (.req w) = true := rfl
@[simp] theorem statusLegal_ts (t : Timestamp) : Event.statusLegal (.ts t) = true := rfl
@[simp] theorem statusLegal_rsp (b : Byte) (l : Bool) : Event.statusLegal (.rsp b l) = true := rfl
@[simp] theorem statusLegal_sts (b : Byte) : Event.statusLegal (.sts b) = isStatus b := rfl

/-- Every event of a frame is a response transfer. -/
theorem mem_frameEvents {f : Vector Byte Config.rspLen} {k : Nat} {e : Event} (h : e ∈ frameEvents f k) :
    ∃ b l, e = .rsp b l := by
  have h := List.mem_of_mem_drop h
  obtain ⟨i, hi, rfl⟩ := List.mem_mapIdx.1 h
  exact ⟨_, _, rfl⟩

@[simp] theorem frameEvents_length (f : Vector Byte Config.rspLen) (k : Nat) :
    (frameEvents f k).length = 260 - k := by simp [frameEvents]

/-- The transfers from offset `k` on are the transfer of byte `k` and those after it. -/
theorem frameEvents_step (f : Vector Byte Config.rspLen) (k : Fin Config.rspLen) :
    frameEvents f k.val = .rsp f[k] (isLast k.val) :: frameEvents f (k.val + 1) := by
  have h : k.val < (f.toList.mapIdx fun j b => Event.rsp b (isLast j)).length := by simp
  simp only [frameEvents]
  rw [List.drop_eq_getElem_cons h]
  simp

end Sys2Proof.Machine
end

