-- ==== Sys2Proof/Laws/PerInstr.lean ====
section
/-! SUPPORT. Statements about every request of the table, one lemma per constructor of Instr. -/

namespace Sys2Proof.Laws.EncodeLength

/-- Every request is encoded in exactly `REQ_LEN = 8` bytes (R71), whatever the checksum function. -/
def Statement (i : Instr) : Prop := ∀ c, (encodeWith c i).length = Machine.reqLen

theorem query : Statement .query := fun _ => rfl

theorem set (var snd val : Byte) : Statement (.set var snd val) := fun _ => rfl

theorem malformedBadChecksum (claimed : Checksum) (var snd val : Byte) :
    Statement (.malformedBadChecksum claimed var snd val) := fun _ => rfl

theorem malformedBadOpcode (word : ReqWord) : Statement (.malformedBadOpcode word) := fun _ => rfl

end Sys2Proof.Laws.EncodeLength
end

