-- ==== Sys2Proof/Laws/State.lean ====
section
/-! SUPPORT. One lemma per field per update of State, all true by rfl, and the equations of the updates that
run the checksum engine. -/

namespace Sys2Proof.Machine

@[simp] theorem statusByte_true : statusByte true = 1 := rfl

@[simp] theorem statusByte_false : statusByte false = 0 := rfl

variable (s : State)

/-! ### ckStart -/

@[simp] theorem ckStart_slots : s.ckStart.slots = s.slots := rfl
@[simp] theorem ckStart_phase : s.ckStart.phase = s.phase := rfl
@[simp] theorem ckStart_req : s.ckStart.req = s.req := rfl
@[simp] theorem ckStart_tsreg : s.ckStart.tsreg = s.tsreg := rfl
@[simp] theorem ckStart_stsreg : s.ckStart.stsreg = s.stsreg := rfl
@[simp] theorem ckStart_rspbuf : s.ckStart.rspbuf = s.rspbuf := rfl
@[simp] theorem ckStart_bytecnt : s.ckStart.bytecnt = s.bytecnt := rfl
@[simp] theorem ckStart_ckAcc : s.ckStart.ckAcc = [] := rfl
@[simp] theorem ckStart_trace : s.ckStart.trace = s.trace := rfl
@[simp] theorem ckStart_labels : s.ckStart.labels = s.labels := rfl
@[simp] theorem ckStart_host : s.ckStart.host = s.host := rfl
@[simp] theorem ckStart_inbox : s.ckStart.inbox = s.inbox := rfl

/-! ### ckFeed -/

@[simp] theorem ckFeed_slots (b : Byte) : (s.ckFeed b).slots = s.slots := rfl
@[simp] theorem ckFeed_phase (b : Byte) : (s.ckFeed b).phase = s.phase := rfl
@[simp] theorem ckFeed_req (b : Byte) : (s.ckFeed b).req = s.req := rfl
@[simp] theorem ckFeed_tsreg (b : Byte) : (s.ckFeed b).tsreg = s.tsreg := rfl
@[simp] theorem ckFeed_stsreg (b : Byte) : (s.ckFeed b).stsreg = s.stsreg := rfl
@[simp] theorem ckFeed_rspbuf (b : Byte) : (s.ckFeed b).rspbuf = s.rspbuf := rfl
@[simp] theorem ckFeed_bytecnt (b : Byte) : (s.ckFeed b).bytecnt = s.bytecnt := rfl
@[simp] theorem ckFeed_ckAcc (b : Byte) : (s.ckFeed b).ckAcc = s.ckAcc ++ [b] := rfl
@[simp] theorem ckFeed_trace (b : Byte) : (s.ckFeed b).trace = s.trace := rfl
@[simp] theorem ckFeed_labels (b : Byte) : (s.ckFeed b).labels = s.labels := rfl
@[simp] theorem ckFeed_host (b : Byte) : (s.ckFeed b).host = s.host := rfl
@[simp] theorem ckFeed_inbox (b : Byte) : (s.ckFeed b).inbox = s.inbox := rfl

/-! ### recvRequest -/

@[simp] theorem recvRequest_slots (w : ReqWord) : (s.recvRequest w).slots = s.slots := rfl
@[simp] theorem recvRequest_phase (w : ReqWord) : (s.recvRequest w).phase = .decode := rfl
@[simp] theorem recvRequest_req (w : ReqWord) : (s.recvRequest w).req = w := rfl
@[simp] theorem recvRequest_tsreg (w : ReqWord) : (s.recvRequest w).tsreg = s.tsreg := rfl
@[simp] theorem recvRequest_stsreg (w : ReqWord) : (s.recvRequest w).stsreg = s.stsreg := rfl
@[simp] theorem recvRequest_rspbuf (w : ReqWord) : (s.recvRequest w).rspbuf = s.rspbuf := rfl
@[simp] theorem recvRequest_bytecnt (w : ReqWord) : (s.recvRequest w).bytecnt = s.bytecnt := rfl
@[simp] theorem recvRequest_ckAcc (w : ReqWord) : (s.recvRequest w).ckAcc = s.ckAcc := rfl
@[simp] theorem recvRequest_trace (w : ReqWord) : (s.recvRequest w).trace = s.trace ++ [.req w] := rfl
@[simp] theorem recvRequest_labels (w : ReqWord) : (s.recvRequest w).labels = s.labels := rfl
@[simp] theorem recvRequest_host (w : ReqWord) : (s.recvRequest w).host = s.host := rfl
@[simp] theorem recvRequest_inbox (w : ReqWord) : (s.recvRequest w).inbox = s.inbox := rfl

/-! ### toReport -/

@[simp] theorem toReport_slots : s.toReport.slots = s.slots := rfl
@[simp] theorem toReport_phase : s.toReport.phase = .reportBuild := rfl
@[simp] theorem toReport_req : s.toReport.req = s.req := rfl
@[simp] theorem toReport_tsreg : s.toReport.tsreg = s.tsreg := rfl
@[simp] theorem toReport_stsreg : s.toReport.stsreg = s.stsreg := rfl
@[simp] theorem toReport_rspbuf : s.toReport.rspbuf = s.rspbuf := rfl
@[simp] theorem toReport_bytecnt : s.toReport.bytecnt = s.bytecnt := rfl
@[simp] theorem toReport_ckAcc : s.toReport.ckAcc = s.ckAcc := rfl
@[simp] theorem toReport_trace : s.toReport.trace = s.trace := rfl
@[simp] theorem toReport_labels : s.toReport.labels = s.labels := rfl
@[simp] theorem toReport_host : s.toReport.host = s.host := rfl
@[simp] theorem toReport_inbox : s.toReport.inbox = s.inbox := rfl

/-! ### reject -/

@[simp] theorem reject_slots (c : Cause) : (s.reject c).slots = s.slots := rfl
@[simp] theorem reject_phase (c : Cause) : (s.reject c).phase = .status := rfl
@[simp] theorem reject_req (c : Cause) : (s.reject c).req = s.req := rfl
@[simp] theorem reject_tsreg (c : Cause) : (s.reject c).tsreg = s.tsreg := rfl
@[simp] theorem reject_stsreg (c : Cause) : (s.reject c).stsreg = statusByte false := rfl
@[simp] theorem reject_rspbuf (c : Cause) : (s.reject c).rspbuf = s.rspbuf := rfl
@[simp] theorem reject_bytecnt (c : Cause) : (s.reject c).bytecnt = s.bytecnt := rfl
@[simp] theorem reject_ckAcc (c : Cause) : (s.reject c).ckAcc = s.ckAcc := rfl
@[simp] theorem reject_trace (c : Cause) : (s.reject c).trace = s.trace := rfl
@[simp] theorem reject_labels (c : Cause) : (s.reject c).labels = s.labels ++ [c] := rfl
@[simp] theorem reject_host (c : Cause) : (s.reject c).host = s.host := rfl
@[simp] theorem reject_inbox (c : Cause) : (s.reject c).inbox = s.inbox := rfl

/-! ### rejectOpcode -/

@[simp] theorem rejectOpcode_slots : s.rejectOpcode.slots = s.slots := rfl
@[simp] theorem rejectOpcode_phase : s.rejectOpcode.phase = .status := rfl
@[simp] theorem rejectOpcode_req : s.rejectOpcode.req = s.req := rfl
@[simp] theorem rejectOpcode_tsreg : s.rejectOpcode.tsreg = s.tsreg := rfl
@[simp] theorem rejectOpcode_stsreg : s.rejectOpcode.stsreg = statusByte false := rfl
@[simp] theorem rejectOpcode_rspbuf : s.rejectOpcode.rspbuf = s.rspbuf := rfl
@[simp] theorem rejectOpcode_bytecnt : s.rejectOpcode.bytecnt = s.bytecnt := rfl
@[simp] theorem rejectOpcode_ckAcc : s.rejectOpcode.ckAcc = s.ckAcc := rfl
@[simp] theorem rejectOpcode_trace : s.rejectOpcode.trace = s.trace := rfl
@[simp] theorem rejectOpcode_labels : s.rejectOpcode.labels = s.labels ++ [.badOpcode] := rfl
@[simp] theorem rejectOpcode_host : s.rejectOpcode.host = s.host := rfl
@[simp] theorem rejectOpcode_inbox : s.rejectOpcode.inbox = s.inbox := rfl

/-! ### takeTimestamp -/

@[simp] theorem takeTimestamp_slots (t : Timestamp) : (s.takeTimestamp t).slots = s.slots := rfl
@[simp] theorem takeTimestamp_phase (t : Timestamp) : (s.takeTimestamp t).phase = .write := rfl
@[simp] theorem takeTimestamp_req (t : Timestamp) : (s.takeTimestamp t).req = s.req := rfl
@[simp] theorem takeTimestamp_tsreg (t : Timestamp) : (s.takeTimestamp t).tsreg = t := rfl
@[simp] theorem takeTimestamp_stsreg (t : Timestamp) : (s.takeTimestamp t).stsreg = s.stsreg := rfl
@[simp] theorem takeTimestamp_rspbuf (t : Timestamp) : (s.takeTimestamp t).rspbuf = s.rspbuf := rfl
@[simp] theorem takeTimestamp_bytecnt (t : Timestamp) : (s.takeTimestamp t).bytecnt = s.bytecnt := rfl
@[simp] theorem takeTimestamp_ckAcc (t : Timestamp) : (s.takeTimestamp t).ckAcc = s.ckAcc := rfl
@[simp] theorem takeTimestamp_trace (t : Timestamp) : (s.takeTimestamp t).trace = s.trace ++ [.ts t] := rfl
@[simp] theorem takeTimestamp_labels (t : Timestamp) : (s.takeTimestamp t).labels = s.labels := rfl
@[simp] theorem takeTimestamp_host (t : Timestamp) : (s.takeTimestamp t).host = s.host := rfl
@[simp] theorem takeTimestamp_inbox (t : Timestamp) : (s.takeTimestamp t).inbox = s.inbox := rfl

/-! ### sendFrame -/

@[simp] theorem sendFrame_slots : s.sendFrame.slots = s.slots := rfl
@[simp] theorem sendFrame_phase : s.sendFrame.phase = .status := rfl
@[simp] theorem sendFrame_req : s.sendFrame.req = s.req := rfl
@[simp] theorem sendFrame_tsreg : s.sendFrame.tsreg = s.tsreg := rfl
@[simp] theorem sendFrame_stsreg : s.sendFrame.stsreg = statusByte true := rfl
@[simp] theorem sendFrame_rspbuf : s.sendFrame.rspbuf = s.rspbuf := rfl
@[simp] theorem sendFrame_bytecnt : s.sendFrame.bytecnt = 259 := rfl
@[simp] theorem sendFrame_ckAcc : s.sendFrame.ckAcc = s.ckAcc := rfl
@[simp] theorem sendFrame_trace : s.sendFrame.trace = s.trace ++ frameEvents s.rspbuf s.bytecnt := rfl
@[simp] theorem sendFrame_labels : s.sendFrame.labels = s.labels := rfl
@[simp] theorem sendFrame_host : s.sendFrame.host = s.host := rfl
@[simp] theorem sendFrame_inbox : s.sendFrame.inbox = s.inbox := rfl

/-! ### sendStatus -/

@[simp] theorem sendStatus_slots : s.sendStatus.slots = s.slots := rfl
@[simp] theorem sendStatus_phase : s.sendStatus.phase = .idle := rfl
@[simp] theorem sendStatus_req : s.sendStatus.req = s.req := rfl
@[simp] theorem sendStatus_tsreg : s.sendStatus.tsreg = s.tsreg := rfl
@[simp] theorem sendStatus_stsreg : s.sendStatus.stsreg = Config.stsIdle := rfl
@[simp] theorem sendStatus_rspbuf : s.sendStatus.rspbuf = s.rspbuf := rfl
@[simp] theorem sendStatus_bytecnt : s.sendStatus.bytecnt = s.bytecnt := rfl
@[simp] theorem sendStatus_ckAcc : s.sendStatus.ckAcc = s.ckAcc := rfl
@[simp] theorem sendStatus_trace : s.sendStatus.trace = s.trace ++ [.sts s.stsreg] := rfl
@[simp] theorem sendStatus_labels : s.sendStatus.labels = s.labels := rfl
@[simp] theorem sendStatus_host : s.sendStatus.host = s.host := rfl
@[simp] theorem sendStatus_inbox : s.sendStatus.inbox = s.inbox := rfl

/-! ### coreReset -/

@[simp] theorem coreReset_slots : s.coreReset.slots = State.reset.slots := rfl
@[simp] theorem coreReset_phase : s.coreReset.phase = .idle := rfl
@[simp] theorem coreReset_req : s.coreReset.req = 0 := rfl
@[simp] theorem coreReset_tsreg : s.coreReset.tsreg = 0 := rfl
@[simp] theorem coreReset_stsreg : s.coreReset.stsreg = 0 := rfl
@[simp] theorem coreReset_rspbuf : s.coreReset.rspbuf = State.reset.rspbuf := rfl
@[simp] theorem coreReset_bytecnt : s.coreReset.bytecnt = 0 := rfl
@[simp] theorem coreReset_ckAcc : s.coreReset.ckAcc = [] := rfl
@[simp] theorem coreReset_trace : s.coreReset.trace = s.trace := rfl
@[simp] theorem coreReset_labels : s.coreReset.labels = s.labels := rfl
@[simp] theorem coreReset_host : s.coreReset.host = s.host := rfl
@[simp] theorem coreReset_inbox : s.coreReset.inbox = s.inbox := rfl

/-! ### The updates that run the checksum engine -/

theorem foldl_ckFeed (bs : List Byte) (s : State) :
    bs.foldl State.ckFeed s = { s with ckAcc := s.ckAcc ++ bs } := by
  induction bs generalizing s with
  | nil => simp
  | cons b bs ih => simp [ih, State.ckFeed]

/-- A checksum computation leaves nothing of the accumulators' earlier content and changes nothing else. -/
theorem ckRun_eq (bs : List Byte) : s.ckRun bs = { s with ckAcc := bs } := by
  simp [State.ckRun, foldl_ckFeed, State.ckStart]

theorem toTimestamp_eq (var snd val : Byte) :
    s.toTimestamp var snd val = { s with ckAcc := setPayload var snd val, phase := .tsWait } := by
  simp [State.toTimestamp, ckRun_eq]

theorem rejectChecksum_eq (var snd val : Byte) :
    s.rejectChecksum var snd val = { s with
      ckAcc := setPayload var snd val, stsreg := statusByte false, phase := .status,
      labels := s.labels ++ [.badChecksum] } := by
  simp [State.rejectChecksum, State.reject, ckRun_eq]

theorem buildReport_eq :
    s.buildReport = { s with
      ckAcc := payload s.slots, rspbuf := encodeReport s.slots, bytecnt := 0, phase := .reportSend } := by
  simp [State.buildReport, State.snapshot, ckRun_eq]

@[simp] theorem toTimestamp_slots (var snd val : Byte) : (s.toTimestamp var snd val).slots = s.slots := by rw [toTimestamp_eq]
@[simp] theorem toTimestamp_phase (var snd val : Byte) : (s.toTimestamp var snd val).phase = .tsWait := by rw [toTimestamp_eq]
@[simp] theorem toTimestamp_req (var snd val : Byte) : (s.toTimestamp var snd val).req = s.req := by rw [toTimestamp_eq]
@[simp] theorem toTimestamp_tsreg (var snd val : Byte) : (s.toTimestamp var snd val).tsreg = s.tsreg := by rw [toTimestamp_eq]
@[simp] theorem toTimestamp_stsreg (var snd val : Byte) : (s.toTimestamp var snd val).stsreg = s.stsreg := by rw [toTimestamp_eq]
@[simp] theorem toTimestamp_rspbuf (var snd val : Byte) : (s.toTimestamp var snd val).rspbuf = s.rspbuf := by rw [toTimestamp_eq]
@[simp] theorem toTimestamp_bytecnt (var snd val : Byte) : (s.toTimestamp var snd val).bytecnt = s.bytecnt := by rw [toTimestamp_eq]
@[simp] theorem toTimestamp_ckAcc (var snd val : Byte) : (s.toTimestamp var snd val).ckAcc = setPayload var snd val := by rw [toTimestamp_eq]
@[simp] theorem toTimestamp_trace (var snd val : Byte) : (s.toTimestamp var snd val).trace = s.trace := by rw [toTimestamp_eq]
@[simp] theorem toTimestamp_labels (var snd val : Byte) : (s.toTimestamp var snd val).labels = s.labels := by rw [toTimestamp_eq]
@[simp] theorem toTimestamp_host (var snd val : Byte) : (s.toTimestamp var snd val).host = s.host := by rw [toTimestamp_eq]
@[simp] theorem toTimestamp_inbox (var snd val : Byte) : (s.toTimestamp var snd val).inbox = s.inbox := by rw [toTimestamp_eq]

@[simp] theorem rejectChecksum_slots (var snd val : Byte) : (s.rejectChecksum var snd val).slots = s.slots := by rw [rejectChecksum_eq]
@[simp] theorem rejectChecksum_phase (var snd val : Byte) : (s.rejectChecksum var snd val).phase = .status := by rw [rejectChecksum_eq]
@[simp] theorem rejectChecksum_req (var snd val : Byte) : (s.rejectChecksum var snd val).req = s.req := by rw [rejectChecksum_eq]
@[simp] theorem rejectChecksum_tsreg (var snd val : Byte) : (s.rejectChecksum var snd val).tsreg = s.tsreg := by rw [rejectChecksum_eq]
@[simp] theorem rejectChecksum_stsreg (var snd val : Byte) : (s.rejectChecksum var snd val).stsreg = statusByte false := by rw [rejectChecksum_eq]
@[simp] theorem rejectChecksum_rspbuf (var snd val : Byte) : (s.rejectChecksum var snd val).rspbuf = s.rspbuf := by rw [rejectChecksum_eq]
@[simp] theorem rejectChecksum_bytecnt (var snd val : Byte) : (s.rejectChecksum var snd val).bytecnt = s.bytecnt := by rw [rejectChecksum_eq]
@[simp] theorem rejectChecksum_ckAcc (var snd val : Byte) : (s.rejectChecksum var snd val).ckAcc = setPayload var snd val := by rw [rejectChecksum_eq]
@[simp] theorem rejectChecksum_trace (var snd val : Byte) : (s.rejectChecksum var snd val).trace = s.trace := by rw [rejectChecksum_eq]
@[simp] theorem rejectChecksum_labels (var snd val : Byte) : (s.rejectChecksum var snd val).labels = s.labels ++ [.badChecksum] := by rw [rejectChecksum_eq]
@[simp] theorem rejectChecksum_host (var snd val : Byte) : (s.rejectChecksum var snd val).host = s.host := by rw [rejectChecksum_eq]
@[simp] theorem rejectChecksum_inbox (var snd val : Byte) : (s.rejectChecksum var snd val).inbox = s.inbox := by rw [rejectChecksum_eq]

@[simp] theorem buildReport_slots : s.buildReport.slots = s.slots := by rw [buildReport_eq]
@[simp] theorem buildReport_phase : s.buildReport.phase = .reportSend := by rw [buildReport_eq]
@[simp] theorem buildReport_req : s.buildReport.req = s.req := by rw [buildReport_eq]
@[simp] theorem buildReport_tsreg : s.buildReport.tsreg = s.tsreg := by rw [buildReport_eq]
@[simp] theorem buildReport_stsreg : s.buildReport.stsreg = s.stsreg := by rw [buildReport_eq]
@[simp] theorem buildReport_rspbuf : s.buildReport.rspbuf = encodeReport s.slots := by rw [buildReport_eq]
@[simp] theorem buildReport_bytecnt : s.buildReport.bytecnt = 0 := by rw [buildReport_eq]
@[simp] theorem buildReport_ckAcc : s.buildReport.ckAcc = payload s.slots := by rw [buildReport_eq]
@[simp] theorem buildReport_trace : s.buildReport.trace = s.trace := by rw [buildReport_eq]
@[simp] theorem buildReport_labels : s.buildReport.labels = s.labels := by rw [buildReport_eq]
@[simp] theorem buildReport_host : s.buildReport.host = s.host := by rw [buildReport_eq]
@[simp] theorem buildReport_inbox : s.buildReport.inbox = s.inbox := by rw [buildReport_eq]

end Sys2Proof.Machine
end

