-- ==== Sys2Proof/Laws/Transaction.lean ====
section
/-! SUPPORT. What each shared operation can do, said once: the table write, the handshakes that end a transaction, the
fetch of the next request. The provers cite these instead of unfolding the operations. -/

namespace Sys2Proof.Machine

/-- The table write of an id below 64. -/
theorem tableSet_of_lt {var : Byte} (h : var.toNat < Config.nSlots) (snd val : Byte) (t : Timestamp) (s : State) :
    s.tableSet var snd val t =
      (true, { s with slots := s.slots.set var.toNat { ts := t, snd := snd, val := val } h }) := by
  simp [State.tableSet, slotIndex, h]

/-- The table write of an id of 64 or more. -/
theorem tableSet_of_not_lt {var : Byte} (h : ¬ var.toNat < Config.nSlots) (snd val : Byte) (t : Timestamp)
    (s : State) : s.tableSet var snd val t = (false, s) := by
  simp [State.tableSet, slotIndex, h]

/-- Everything phase WRITE can do: one of two cases, by the id's range. -/
theorem writeSlot_cases (var snd val : Byte) (s : State) :
    (∃ h : var.toNat < Config.nSlots,
      s.writeSlot var snd val = { s with
        slots := s.slots.set var.toNat { ts := s.tsreg, snd := snd, val := val } h, stsreg := 1,
        phase := .status }) ∨
    (¬ var.toNat < Config.nSlots ∧
      s.writeSlot var snd val = { s with stsreg := 0, phase := .status, labels := s.labels ++ [.range] }) := by
  by_cases h : var.toNat < Config.nSlots
  · exact .inl ⟨h, by simp [State.writeSlot, tableSet_of_lt h, statusByte]⟩
  · exact .inr ⟨h, by simp [State.writeSlot, tableSet_of_not_lt h, State.reject, statusByte]⟩

theorem finishStatus_eq_next {s s' : State} :
    finishStatus s = .next s' ↔ s.host.acceptsStatus = true ∧ s.sendStatus = s' := by
  unfold finishStatus
  split <;> simp_all

theorem finishSend_eq_next {s s' : State} :
    finishSend s = .next s' ↔
      s.host.acceptsFrame = true ∧ s.host.acceptsStatus = true ∧ s.sendFrame.sendStatus = s' := by
  unfold finishSend
  split <;> simp_all [finishStatus_eq_next]

theorem finishWrite_eq_next {var snd val : Byte} {s s' : State} :
    finishWrite var snd val s = .next s' ↔
      (s.writeSlot var snd val).host.acceptsStatus = true ∧ (s.writeSlot var snd val).sendStatus = s' :=
  finishStatus_eq_next

theorem finishTsWait_eq_next {var snd val : Byte} {s s' : State} :
    finishTsWait var snd val s = .next s' ↔
      ∃ t, s.host.ts = some t ∧ finishWrite var snd val (s.takeTimestamp t) = .next s' := by
  unfold finishTsWait
  split <;> simp_all

theorem whenIdle_eq_next {s s' : State} {run : State → Out} :
    whenIdle s run = .next s' ↔ s.phase = .idle ∧ run s = .next s' := by
  unfold whenIdle
  split <;> simp_all

theorem whenIdle_of_idle {s : State} (h : s.phase = .idle) (run : State → Out) : whenIdle s run = run s :=
  if_pos h

/-- Everything the fetch can answer. -/
theorem fetch_cases (s : State) :
    (s.inbox = [] ∧ s.phase = .idle ∧ fetch s = .wait) ∨
    (∃ rest, s.inbox = .reset :: rest ∧ fetch s = .reset { s with inbox := rest }) ∨
    ((∀ rest, s.inbox ≠ .reset :: rest) ∧ s.phase ≠ .idle ∧ fetch s = .resume) ∨
    (∃ p a rest, s.inbox = .request p a :: rest ∧ s.phase = .idle ∧
      ((∃ e, decode p = .error e ∧ fetch s = .badLength) ∨
       (∃ i, decode p = .ok i ∧ fetch s = .run i { s with inbox := rest, host := a }))) := by
  unfold fetch
  split
  · split <;> simp_all
  · simp_all
  · split
    · split <;> simp_all
    · simp_all

/-- Everything a step can do when it answers a next state. -/
theorem step_cases {s s' : State} (h : step s = .next s') :
    (s.inbox = [] ∧ s.phase = .idle ∧ s' = s) ∨
    (∃ rest, s.inbox = .reset :: rest ∧ s' = ({ s with inbox := rest } : State).coreReset) ∨
    ((∀ rest, s.inbox ≠ .reset :: rest) ∧ s.phase ≠ .idle ∧ resume s = .next s') ∨
    (∃ p a rest i, s.inbox = .request p a :: rest ∧ s.phase = .idle ∧ decode p = .ok i ∧
      exec i { s with inbox := rest, host := a } = .next s') := by
  unfold step at h
  obtain ⟨hi, hp, hf⟩ | ⟨rest, hi, hf⟩ | ⟨hi, hp, hf⟩ | ⟨p, a, rest, hi, hp, ⟨e, he, hf⟩ | ⟨i, he, hf⟩⟩ :=
    fetch_cases s <;> rw [hf] at h <;> simp_all

end Sys2Proof.Machine
end

