-- ==== Sys2Proof/Tests/Slice0.lean ====
section
/-! SUPPORT. Small tests, their expected results from spec/95_test_vectors.md or worked by hand from the rules each
cites, and for every obligation with hypotheses a witness that meets them. -/

namespace Sys2Proof.Tests

open Sys2Proof Sys2Proof.Machine

/-- The next state of an outcome. -/
def nextOf : Out → Option State
  | .next s => some s
  | _ => none

/-- After reset, with a host that answers `t` when asked for a timestamp. -/
def at16 (t : Timestamp) : State :=
  { State.reset with host := { ts := some t, acceptsFrame := true, acceptsStatus := true } }

/-- A QUERY's transaction in its first phase. -/
def midQuery : State := { State.reset with phase := .decode, req := queryWord }

/-- An edge at which everything is answered and done. -/
def eagerEdge : Edge where
  pins := { rst := false, reqValid := false, reqData := 0, tsValid := true, tsData := 0, rspReady := true,
            stsReady := true }
  done := true

/-- An edge at which nothing is answered or done. -/
def stalledEdge : Edge where
  pins := { rst := false, reqValid := false, reqData := 0, tsValid := false, tsData := 0, rspReady := false,
            stsReady := false }
  done := false

/-! ### Well-formedness: an ill-formed term for each check -/

/-- R65: opcode 0xF1 is not BAD_OPCODE. -/
theorem test_wf_refuses_set_opcode : (Instr.malformedBadOpcode 0x050403F103DE00FE).wf = false := by decide

/-- R123, R245: the token is not BAD_OPCODE. -/
theorem test_wf_refuses_token : (Instr.malformedBadOpcode 0x4B4F756F79657241).wf = false := by decide

/-- R125: a claimed checksum that is right is not BAD_CHECKSUM (V1: `F1 03 04 05` has 0x03DE00FE). -/
theorem test_wf_refuses_right_checksum :
    (Instr.malformedBadChecksum 0x03DE00FE 3 4 5).wfWith adler32 = false := by decide

/-- R125: off by one, it is. -/
theorem test_wf_accepts_wrong_checksum :
    (Instr.malformedBadChecksum 0x03DE00FF 3 4 5).wfWith adler32 = true := by decide

/-! ### Decoding, on words written out from the formats (V2) -/

/-- Format Q (R61): A r e y o u O K. -/
theorem test_decode_query :
    (decode [0x41, 0x72, 0x65, 0x79, 0x6F, 0x75, 0x4F, 0x4B]).toOption = some .query := by decide

/-- Format S (R62): C = 0x03DE00FE little-endian, OP = F1, V = 3, S = 4, X = 5; the checksum is `CK_ADLER`'s (R108). -/
theorem test_decode_set :
    (decodeWith adler32 [0xFE, 0x00, 0xDE, 0x03, 0xF1, 0x03, 0x04, 0x05]).toOption = some (.set 3 4 5) := by decide

/-- Format S with C off by one in bits [31:16] (V2). -/
theorem test_decode_bad_checksum :
    (decodeWith adler32 [0xFE, 0x00, 0xDF, 0x03, 0xF1, 0x03, 0x04, 0x05]).toOption
      = some (.malformedBadChecksum 0x03DF00FE 3 4 5) := by decide

/-- A request that fails both checks is BAD_OPCODE (V2, R245). -/
theorem test_decode_bad_opcode :
    (decode [0xFF, 0xFF, 0xFF, 0xFF, 0xF0, 0x00, 0x00, 0x00]).toOption
      = some (.malformedBadOpcode 0x000000F0FFFFFFFF) := by decide

/-- Seven bytes are no request (R121). -/
theorem test_decode_framing : (decode [0x41, 0x72, 0x65, 0x79, 0x6F, 0x75, 0x4F]).toOption = none := by decide

/-- The largest SET of V2: `EF 03 C2 09 F1 FF FF FF`. -/
theorem test_encode_set_max :
    encodeWith adler32 (.set 255 255 255) = [0xEF, 0x03, 0xC2, 0x09, 0xF1, 0xFF, 0xFF, 0xFF] := by decide

/-- The table's numbering: QUERY's match value is the token (opcode_table.json). -/
theorem test_table_word_query : decodeTableWord 64 0x4B4F756F79657241 = some .query := by decide

/-- The table's numbering: all zeros is BAD_OPCODE (V2). -/
theorem test_table_word_zero : decodeTableWord 64 0 = some (.malformedBadOpcode 0) := by decide

/-! ### The checksum (V1) -/

/-- `FF FF FF FF` has 0x09FA03FD. -/
theorem test_adler_four_ff : adler32 [0xFF, 0xFF, 0xFF, 0xFF] = 0x09FA03FD := by decide

/-- `F1 00 02 00` collides with `F1 01 00 01`. -/
theorem test_adler_collision : adler32 [0xF1, 0x01, 0x00, 0x01] = adler32 [0xF1, 0x00, 0x02, 0x00] := by decide

/-- 256 bytes, `FF` first, the rest 00: 0x000F0100, where `b` is reduced. -/
theorem test_adler_reduces : adler32 (0xFF :: zeros 255) = 0x000F0100 := by decide +kernel

/-! ### The requests (V5) -/

/-- `SET 3, 4, 5` at 12345 writes slot 3. -/
theorem test_set_writes :
    (nextOf (exec (.set 3 4 5) (at16 12345))).map (fun s => s.slots[3])
      = some { ts := 12345, snd := 4, val := 5 } := by decide

/-- `SET 64, 1, 2` reads its timestamp and answers 0. -/
theorem test_set_out_of_range :
    (nextOf (exec (.set 64 1 2) (at16 100))).map (fun s => s.trace.drop 1) = some [.ts 100, .sts 0] := by decide

/-- `SETC 0x00000000, 200, 0, 0` answers 0 and reads no timestamp. -/
theorem test_bad_checksum :
    (nextOf (exec (.malformedBadChecksum 0 200 0 0) (at16 7))).map (fun s => s.trace.drop 1)
      = some [.sts 0] := by decide

/-- `12345678` answers 0 (E2). -/
theorem test_bad_opcode :
    (nextOf (exec (.malformedBadOpcode 0x3837363534333231) (at16 7))).map (fun s => s.trace)
      = some [.req 0x3837363534333231, .sts 0] := by decide

/-- A QUERY's frame carries slot 3's record `39 30 04 05` at offsets 16..19 (V4). -/
theorem test_query_record :
    (((nextOf (exec .query { at16 0 with
        slots := State.reset.slots.set 3 { ts := 12345, snd := 4, val := 5 } })).map
      (fun s => s.rspbuf.toList)).map (fun l => (l.drop 16).take 4))
      = some [0x39, 0x30, 0x04, 0x05] := by decide

/-- A QUERY makes one request transfer, 260 response transfers and one status transfer (V6). -/
theorem test_query_transfers :
    (nextOf (exec .query State.reset)).map (fun s => s.trace.length) = some 262 := by decide +kernel

/-- The step runs the request offered at the port: the token first after reset. -/
theorem test_step_runs_query :
    (nextOf (step (State.reset.withFetchWord 64 0x4B4F756F79657241))).map (fun s => (s.phase, s.trace.getLast?, s.inbox))
      = some (.idle, some (.sts 1), []) := by decide +kernel

/-- Reset cuts a SET in TS_WAIT: no transfer, no status (V7). -/
theorem test_reset_cuts_set :
    (nextOf (step { State.reset with phase := .tsWait, trace := [.req 5], inbox := [.reset] })).map
      (fun s => (s.phase, s.trace)) = some (.idle, [.req 5]) := by decide

/-- The clock: an idle edge with a request offered latches it (R190). -/
theorem test_edge_latches_request :
    (State.reset.edge { stalledEdge with pins := { stalledEdge.pins with reqValid := true, reqData := 7 } }).phase
      = .decode := by decide

/-! ### Witnesses: states and operands that meet each obligation's hypotheses together -/

theorem witness_DecodeReversesEncode :
    (Instr.malformedBadChecksum 0x03DE00FF 3 4 5).wfWith adler32 = true ∧
      (Instr.malformedBadOpcode 0x3837363534333231).wfWith adler32 = true := by decide

theorem witness_EncodeReversesDecode :
    decodeWith adler32 [0xFE, 0x00, 0xDE, 0x03, 0xF1, 0x03, 0x04, 0x05] = .ok (.set 3 4 5) := by rfl

/-- Both lengths: 8 and another. -/
theorem witness_DecoderRefusesOnlyOtherLengths :
    (zeros 8).length = 8 ∧ (zeros 7).length ≠ 8 ∧ (zeros 9).length ≠ 8 := by decide

/-- `CK_ADLER` (R108) has CK_SMALL_ADLER: the hypothesis of SpecWordsDecode and SmallAdlerClosedForm. -/
theorem witness_CkSmallAdler : CkSmallAdler adler32 := fun _ _ => rfl

/-- `CK_ADLER` has CK_ZERO too (R108). -/
theorem witness_CkZero : CkZero adler32 := fun _ => rfl

/-- Each clause: a word of opcode 0xF0, and one of opcode 0xF1 with id 64, both with a wrong checksum. -/
theorem witness_FirstFailingCheckDecides :
    ((0x000000F0FFFFFFFF : ReqWord) ≠ queryWord ∧
      adler32 (setPayload (reqVar 0x000000F0FFFFFFFF) (reqSender 0x000000F0FFFFFFFF) (reqValue 0x000000F0FFFFFFFF))
        ≠ reqClaimed 0x000000F0FFFFFFFF ∧ reqOpcode 0x000000F0FFFFFFFF ≠ opSet) ∧
    ((0x000040F100000000 : ReqWord) ≠ queryWord ∧
      adler32 (setPayload (reqVar 0x000040F100000000) (reqSender 0x000040F100000000) (reqValue 0x000040F100000000))
        ≠ reqClaimed 0x000040F100000000 ∧ reqOpcode 0x000040F100000000 = opSet ∧
      64 ≤ (reqVar 0x000040F100000000).toNat) ∧
    ∃ s', exec (.malformedBadChecksum 0 64 0 0) State.reset = .next s' :=
  ⟨by decide, by decide, _, rfl⟩

/-- A word of opcode 0xF1 that is a SET under `CK_ADLER`, and one whose claimed checksum is out of the ranges. -/
theorem witness_ClaimedChecksumOfASet :
    CkSmallAdler adler32 ∧ reqOpcode 0x050403F103DE00FE = opSet ∧
      isSetInstr (decodeWordWith adler32 0x050403F103DE00FE) = true ∧
      reqOpcode 0x050403F100000000 = opSet ∧
      ¬ 242 ≤ ((0x050403F100000000 : ReqWord).extractLsb' 0 16).toNat :=
  ⟨fun _ _ => rfl, by decide, by decide, by decide, by decide⟩

theorem witness_FramesAreSelfConsistent : ∃ s', exec .query State.reset = .next s' := ⟨_, rfl⟩

/-- The boundary of the index map: 63, 64 and 255. -/
theorem witness_VariableIdsSelectSlots :
    (63 : Byte).toNat ≤ 63 ∧ 64 ≤ (64 : Byte).toNat ∧ 64 ≤ (255 : Byte).toNat := by decide

theorem witness_TableWriteWritesOneSlot : (63 : Byte).toNat < 64 ∧ 64 ≤ (64 : Byte).toNat := by decide

theorem witness_QueryReportsTheTable :
    State.reset.phase = .idle ∧ State.reset.host.acceptsFrame = true ∧ State.reset.host.acceptsStatus = true := by
  decide

theorem witness_SetWritesItsSlotWhenInRange :
    (at16 12345).phase = .idle ∧ (at16 12345).host.ts = some 12345 ∧ (at16 12345).host.acceptsStatus = true := by
  decide

theorem witness_BadOpcodeAnswersStatusZero :
    (0 : ReqWord) ≠ queryWord ∧ reqOpcode 0 ≠ 0xF1 ∧ State.reset.phase = .idle ∧
      State.reset.host.acceptsStatus = true := by decide

theorem witness_BadChecksumAnswersStatusZero :
    State.reset.phase = .idle ∧ State.reset.host.acceptsStatus = true ∧
      (0 : Checksum) ≠ adler32 [0xF1, 0, 0, 0] := by decide

/-- For all four requests: RequestsLeaveTheRestAlone, TransferOrder, RejectionsAreLabelled and
HiddenRegistersAfterRequests. -/
theorem witness_RequestsLeaveTheRestAlone :
    (∃ s', exec .query State.reset = .next s') ∧ (∃ s', exec (.set 63 1 1) State.reset = .next s') ∧
      (∃ s', exec (.set 64 1 1) State.reset = .next s') ∧
      (∃ s', exec (.malformedBadChecksum 0 0 0 0) State.reset = .next s') ∧
      ∃ s', exec (.malformedBadOpcode 0) State.reset = .next s' :=
  ⟨⟨_, rfl⟩, ⟨_, rfl⟩, ⟨_, rfl⟩, ⟨_, rfl⟩, ⟨_, rfl⟩⟩

/-- A state in STATUS at an edge that transfers the status, and a completed request (the others are in
witness_RequestsLeaveTheRestAlone). -/
theorem witness_StatusByteIsNotRetained :
    ({ State.reset with phase := .status, stsreg := 1 } : State).phase = .status ∧ eagerEdge.pins.rst = false ∧
      eagerEdge.pins.stsReady = true ∧ ∃ s', exec (.malformedBadOpcode 0) State.reset = .next s' :=
  ⟨rfl, rfl, rfl, _, rfl⟩

theorem witness_TransferCounts :
    State.reset.phase = .idle ∧ State.reset.host.complete .query = true ∧
      State.reset.host.complete (.set 64 0 0) = true := by decide

theorem witness_RejectionsLookAlike :
    64 ≤ (64 : Byte).toNat ∧ (at16 7).phase = .idle ∧ (at16 7).host.ts = some 7 ∧
      (at16 7).host.acceptsStatus = true := by decide

theorem witness_BoundaryRefusals :
    midQuery.phase ≠ .idle ∧
      ({ State.reset with inbox := [.request [0] State.reset.host] } : State).phase = .idle ∧
      [(0 : Byte)].length ≠ 8 := by decide

/-- A host that answers nothing, and one that answers all but the status. -/
theorem witness_UnansweredHandshakesHang :
    State.reset.phase = .idle ∧
      ({ State.reset with host := { ts := none, acceptsFrame := false, acceptsStatus := false } } : State).host.ts
        = none ∧
      ({ State.reset with host := { ts := some 1, acceptsFrame := true, acceptsStatus := false } } : State).host.ts
        = some 1 := by decide

theorem witness_NoRequestIsFatal :
    ({ State.reset with inbox := [.request (zeros 8) (at16 1).host] } : State).phase = .idle ∧
      (zeros 8).length = 8 := by decide

theorem witness_StepRunsTheDecodedRequest :
    (State.reset.withFetchWord 64 0x4B4F756F79657241).phase = .idle ∧
      (State.reset.withFetchWord 64 0x4B4F756F79657241).inbox = .request queryToken State.reset.host :: [] ∧
      decode queryToken = .ok .query := ⟨rfl, by decide, rfl⟩

/-- Waiting in IDLE, in progress with a request waiting, and a reset offered. -/
theorem witness_OtherSteps :
    (State.reset.phase = .idle ∧ State.reset.inbox = []) ∧
      (midQuery.phase ≠ .idle ∧ ∀ rest, midQuery.inbox ≠ .reset :: rest) ∧
      ({ midQuery with inbox := [.reset] } : State).inbox = .reset :: [] :=
  ⟨⟨rfl, rfl⟩, ⟨by decide, by intro rest h; cases h⟩, rfl⟩

theorem witness_EveryStepEndsIdle : ∃ s', step midQuery = .next s' := ⟨_, rfl⟩

/-- A SET that changes slot 63, and an edge of phase WRITE that does. -/
theorem witness_OnlyAcceptedSetsWriteSlots :
    (∃ s', exec (.set 63 1 1) State.reset = .next s' ∧ s'.slots[(63 : Fin Config.nSlots)] ≠ State.reset.slots[63]) ∧
      (({ State.reset with phase := .write, req := 0x01013FF100000000 } : State).edge eagerEdge).slots[63]
        ≠ State.reset.slots[63] :=
  ⟨⟨_, rfl, by decide⟩, by decide⟩

theorem witness_QueryReportsTheLastSet :
    (3 : Byte).toNat < Config.nSlots ∧ (at16 12345).phase = .idle ∧
      (at16 12345).host = { ts := some 12345, acceptsFrame := true, acceptsStatus := true } := by decide

/-- Two QUERY transactions with an out-of-range SET and a MALFORMED request between them. -/
theorem witness_RepeatedQueriesAreIdentical :
    ∃ s1 s2 s3, exec .query State.reset = .next s1 ∧
      [Instr.set 64 0 0, .malformedBadOpcode 0].all (fun i => !writesSlot i) = true ∧
      runRequests [.set 64 0 0, .malformedBadOpcode 0] s1 = .next s2 ∧ exec .query s2 = .next s3 :=
  ⟨_, _, _, rfl, by decide, rfl, rfl⟩

/-- With the same timestamp and with another. -/
theorem witness_RepeatedSetIsIdempotent :
    ∃ s1 s2 s3, exec (.set 3 4 5) (at16 12345) = .next s1 ∧
      exec (.set 3 4 5) { s1 with host := (at16 12345).host } = .next s2 ∧
      exec (.set 3 4 5) { s1 with host := (at16 9).host } = .next s3 ∧ (3 : Byte).toNat < Config.nSlots :=
  ⟨_, _, _, rfl, rfl, rfl, by decide⟩

/-- Two idle states that differ in hidden registers only. -/
theorem witness_OnlySlotsCarryOver :
    State.reset ≠ { State.reset with req := 1, tsreg := 2, stsreg := 3, ckAcc := [4] } ∧
      State.reset.SameButHidden { State.reset with req := 1, tsreg := 2, stsreg := 3, ckAcc := [4] } ∧
      (∃ s', exec (.set 3 4 5) State.reset = .next s') :=
  ⟨by decide, ⟨rfl, rfl, rfl, rfl, rfl, rfl⟩, _, rfl⟩

theorem witness_ResetClearsEverySlot :
    ({ stalledEdge with pins := { stalledEdge.pins with rst := true } } : Edge).pins.rst = true := by decide

theorem witness_HandshakeOutputsFollowPhase : State.reset.phase ≠ .reportSend ∧ State.reset.phase ≠ .status := by
  decide

/-- A state inside a QUERY that meets the invariant, whose step and edge answer a next state. -/
theorem witness_InvariantKeptByStep : midQuery.Inv ∧ ∃ s', step midQuery = .next s' :=
  ⟨by constructor <;> simp [midQuery, State.reset], _, rfl⟩

theorem witness_InvariantKeptByEdge : midQuery.Inv := by
  constructor <;> simp [midQuery, State.reset]

/-- Every row of the table: a state in each phase, an edge without reset, the last byte and one before it. -/
theorem witness_PhaseTable :
    eagerEdge.pins.rst = false ∧ eagerEdge.done = true ∧ eagerEdge.pins.rspReady = true ∧
      stalledEdge.pins.rst = false ∧ stalledEdge.done = false ∧ stalledEdge.pins.rspReady = false ∧
      (∀ p : Phase, ({ State.reset with phase := p } : State).phase = p) ∧
      ({ State.reset with phase := .reportSend, bytecnt := 259 } : State).bytecnt.val = 259 ∧
      ({ State.reset with phase := .reportSend, bytecnt := 258 } : State).bytecnt.val < 259 :=
  ⟨rfl, rfl, rfl, rfl, rfl, rfl, fun _ => rfl, rfl, by decide⟩

theorem witness_OffersAreHeld :
    stalledEdge.pins.rst = false ∧ stalledEdge.pins.rspReady = false ∧ stalledEdge.pins.stsReady = false ∧
      (({ State.reset with phase := .reportSend } : State).outputs ⟨0, false, 0⟩).rspValid = true ∧
      (({ State.reset with phase := .status } : State).outputs ⟨0, false, 0⟩).stsValid = true := by decide

theorem witness_BusyIgnoresOffers : midQuery.phase ≠ .idle ∧ midQuery.phase ≠ .tsWait ∧ eagerEdge.pins.rst = false := by
  decide

theorem witness_WaitsHaveNoTimeLimit :
    (∀ e ∈ [stalledEdge, stalledEdge], e.pins.rst = false ∧ e.pins.tsValid = false ∧ e.pins.rspReady = false ∧
      e.pins.stsReady = false) ∧ ({ State.reset with phase := .tsWait } : State).phase = .tsWait := by decide

theorem witness_EagerTransactionsEnd :
    midQuery.phase ≠ .idle ∧ (∀ e ∈ List.replicate 263 eagerEdge, e.eager = true) ∧
      263 ≤ (List.replicate 263 eagerEdge).length :=
  ⟨by decide, fun e h => by rw [List.eq_of_mem_replicate h]; rfl, List.length_replicate.ge⟩

theorem witness_TransactionFollowsThePhases :
    Instr.query.wf = true ∧ (Instr.set 3 4 5).wf = true ∧ (Instr.malformedBadOpcode 0).wf = true ∧
      State.reset.phase = .idle := by decide

/-- Both branches: an edge that ends the transaction, and one that does not. -/
theorem witness_EveryEdgeKeepsTheOutcome :
    midQuery.phase ≠ .idle ∧
      ({ eagerEdge with pins := { eagerEdge.pins with tsValid := false } } : Edge).agreesWith midQuery.host = true ∧
      (midQuery.edge eagerEdge).phase ≠ .idle ∧
      (({ State.reset with phase := .status } : State).edge eagerEdge).phase = .idle := by decide

/-- A clocked run of a MALFORMED request, stalled once on the way. -/
theorem witness_ClockedRunIsOneStep :
    (Instr.malformedBadOpcode 0).wf = true ∧ encodeWord (.malformedBadOpcode 0) = 0 ∧
      (∀ e ∈ [stalledEdge, eagerEdge, eagerEdge], e.agreesWith State.reset.host = true) ∧
      (State.runTransaction [stalledEdge, eagerEdge, eagerEdge]
        (State.reset.edge { eagerEdge with pins := { eagerEdge.pins with reqValid := true } })).isSome = true := by
  decide

end Sys2Proof.Tests
end

section
/-! SUPPORT. The decoder on the word of a well-formed request, and the operand fields of a word decoded as a SET. -/

namespace Sys2Proof.Machine

/-- The word view of eight bytes decodes as the bytes themselves do (R63). -/
theorem decodeWordWith_le64 (c : List Byte → Checksum) (p0 p1 p2 p3 p4 p5 p6 p7 : Byte) :
    decodeWordWith c (le64 [p0, p1, p2, p3, p4, p5, p6, p7]) = decodeBytes c p0 p1 p2 p3 p4 p5 p6 p7 := by
  have h := bytesLE64_le64 p0 p1 p2 p3 p4 p5 p6 p7
  simp only [bytesLE64, List.cons.injEq, and_true] at h
  obtain ⟨h0, h1, h2, h3, h4, h5, h6, h7⟩ := h
  simp only [decodeWordWith, h0, h1, h2, h3, h4, h5, h6, h7]

/-- Opcode 0xF1 leaves SET and BAD_CHECKSUM, and the checksum decides between them (R122). -/
theorem decodeBytes_opSet (c : List Byte → Checksum) (p0 p1 p2 p3 var snd val : Byte) :
    decodeBytes c p0 p1 p2 p3 opSet var snd val =
      if c (setPayload var snd val) ≠ le32 p0 p1 p2 p3 then
        .malformedBadChecksum (le32 p0 p1 p2 p3) var snd val
      else .set var snd val := by
  have htoken : [p0, p1, p2, p3, opSet, var, snd, val] ≠ queryToken := by simp [queryToken, opSet]
  exact (if_neg htoken).trans (if_neg (not_not.2 rfl))

/-- A word that is neither the token nor of opcode 0xF1 is BAD_OPCODE (R122). -/
theorem decodeWordWith_badOpcode (c : List Byte → Checksum) {w : ReqWord} (hq : w ≠ queryWord)
    (hop : reqOpcode w ≠ opSet) : decodeWordWith c w = .malformedBadOpcode w := by
  have htoken : bytesLE64 w ≠ queryToken := fun h => hq <| by
    rw [← le64_bytesLE64 w, h]
    decide
  calc decodeWordWith c w
      = .malformedBadOpcode (le64 (bytesLE64 w)) := (if_neg htoken).trans (if_pos hop)
    _ = .malformedBadOpcode w := by rw [le64_bytesLE64]

/-- The word of a well-formed request decodes to that request, whatever `CK` is (R61, R62, R122). -/
theorem decodeWordWith_le64_encodeWith (c : List Byte → Checksum) {i : Instr} (h : i.wfWith c = true) :
    decodeWordWith c (le64 (encodeWith c i)) = i := by
  cases i with
  | query => exact decodeWordWith_le64 c 0x41 0x72 0x65 0x79 0x6F 0x75 0x4F 0x4B
  | set var snd val =>
    refine (decodeWordWith_le64 ..).trans ((decodeBytes_opSet ..).trans ?_)
    rw [le32_bytesLE32]
    exact if_neg (not_not.2 rfl)
  | malformedBadChecksum claimed var snd val =>
    have hne : c (setPayload var snd val) ≠ claimed := (bne_iff_ne.1 h).symm
    refine (decodeWordWith_le64 ..).trans ((decodeBytes_opSet ..).trans ?_)
    rw [le32_bytesLE32]
    exact if_pos hne
  | malformedBadOpcode w =>
    obtain ⟨hq, hop⟩ : w ≠ queryWord ∧ reqOpcode w ≠ opSet := by simpa [Instr.wfWith] using h
    simp only [encodeWith, le64_bytesLE64]
    exact decodeWordWith_badOpcode c hq hop

/-- The machine's decoder reverses its encoder on well-formed requests. -/
theorem decodeWord_encodeWord {i : Instr} (h : i.wf = true) : decodeWord (encodeWord i) = i :=
  decodeWordWith_le64_encodeWith ck h

/-- A SET's operands are the operand fields of its word (R62, R63). -/
theorem reqFields_of_decodeWord_set {w : ReqWord} {var snd val : Byte} (h : decodeWord w = .set var snd val) :
    reqVar w = var ∧ reqSender w = snd ∧ reqValue w = val := by
  simp only [decodeWord, decodeWordWith, decodeBytes] at h
  split_ifs at h
  exact Instr.set.inj h

end Sys2Proof.Machine
end

section
/-! SUPPORT. One rising edge of the clock and the rest of a transaction, phase by phase; what every edge leaves
alone. -/

namespace Sys2Proof.Machine

section
variable {s : State} {e : Edge}

/-! ### The edge, row by row of R190 -/

theorem edge_of_rst (h : e.pins.rst = true) : s.edge e = s.coreReset := if_pos h

theorem edge_of_idle (hr : e.pins.rst = false) (h : s.phase = .idle) :
    s.edge e = if e.pins.reqValid then s.recvRequest e.pins.reqData else s := by simp [State.edge, hr, h]

theorem edge_of_decode (hr : e.pins.rst = false) (h : s.phase = .decode) :
    s.edge e = if e.done then s.decodeDone else s := by simp [State.edge, hr, h]

theorem edge_of_tsWait (hr : e.pins.rst = false) (h : s.phase = .tsWait) :
    s.edge e = if e.pins.tsValid then s.takeTimestamp e.pins.tsData else s := by simp [State.edge, hr, h]

theorem edge_of_write (hr : e.pins.rst = false) (h : s.phase = .write) :
    s.edge e = if e.done then s.writeSlot (reqVar s.req) (reqSender s.req) (reqValue s.req) else s := by
  simp [State.edge, hr, h]

theorem edge_of_reportBuild (hr : e.pins.rst = false) (h : s.phase = .reportBuild) :
    s.edge e = if e.done then s.buildReport else s := by simp [State.edge, hr, h]

theorem edge_of_reportSend (hr : e.pins.rst = false) (h : s.phase = .reportSend) :
    s.edge e = if e.pins.rspReady then s.sendByte else s := by simp [State.edge, hr, h]

theorem edge_of_status (hr : e.pins.rst = false) (h : s.phase = .status) :
    s.edge e = if e.pins.stsReady then s.sendStatus else s := by simp [State.edge, hr, h]

/-! ### The rest of a transaction, phase by phase -/

theorem resume_of_decode (h : s.phase = .decode) : resume s = finishDecode s := by simp [resume, h]

theorem resume_of_tsWait (h : s.phase = .tsWait) :
    resume s = finishTsWait (reqVar s.req) (reqSender s.req) (reqValue s.req) s := by simp [resume, h]

theorem resume_of_write (h : s.phase = .write) :
    resume s = finishWrite (reqVar s.req) (reqSender s.req) (reqValue s.req) s := by simp [resume, h]

theorem resume_of_reportBuild (h : s.phase = .reportBuild) : resume s = finishBuild s := by simp [resume, h]

theorem resume_of_reportSend (h : s.phase = .reportSend) : resume s = finishSend s := by simp [resume, h]

theorem resume_of_status (h : s.phase = .status) : resume s = finishStatus s := by simp [resume, h]

end

/-! ### Each request from IDLE: its transfer and the arm of R181 -/

section
variable {s : State} (h : s.phase = .idle)
include h

theorem exec_query_of_idle : exec .query s = finishBuild (s.recvRequest (encodeWord .query)).toReport :=
  if_pos h

theorem exec_set_of_idle (var snd val : Byte) :
    exec (.set var snd val) s =
      finishTsWait var snd val ((s.recvRequest (encodeWord (.set var snd val))).toTimestamp var snd val) :=
  if_pos h

theorem exec_malformedBadChecksum_of_idle (claimed : Checksum) (var snd val : Byte) :
    exec (.malformedBadChecksum claimed var snd val) s =
      finishStatus ((s.recvRequest (encodeWord (.malformedBadChecksum claimed var snd val))).rejectChecksum
        var snd val) :=
  if_pos h

theorem exec_malformedBadOpcode_of_idle (w : ReqWord) :
    exec (.malformedBadOpcode w) s = finishStatus (s.recvRequest (encodeWord (.malformedBadOpcode w))).rejectOpcode :=
  if_pos h

end

/-! ### The operations that branch -/

variable (s : State)

theorem finishTsWait_of_some {t : Timestamp} (var snd val : Byte) (h : s.host.ts = some t) :
    finishTsWait var snd val s = finishWrite var snd val (s.takeTimestamp t) := by
  simp [finishTsWait, h]

@[simp] theorem writeSlot_phase (var snd val : Byte) : (s.writeSlot var snd val).phase = .status := by
  obtain ⟨_, h⟩ | ⟨_, h⟩ := writeSlot_cases var snd val s <;> rw [h]

@[simp] theorem writeSlot_host (var snd val : Byte) : (s.writeSlot var snd val).host = s.host := by
  obtain ⟨_, h⟩ | ⟨_, h⟩ := writeSlot_cases var snd val s <;> rw [h]

/-- REPORT_SEND before the last byte: one response transfer, and the next offset. -/
theorem sendByte_of_lt (h : s.bytecnt.val + 1 < Config.rspLen) :
    s.sendByte = { s with
      bytecnt := ⟨s.bytecnt.val + 1, h⟩
      trace := s.trace ++ [.rsp s.rspbuf[s.bytecnt] (isLast s.bytecnt)] } := dif_pos h

/-- REPORT_SEND at the last byte: what is left of the frame is this one transfer. -/
theorem sendByte_of_not_lt (h : ¬ s.bytecnt.val + 1 < Config.rspLen) : s.sendByte = s.sendFrame := by
  have hlast : s.bytecnt = 259 :=
    Fin.ext (Nat.le_antisymm (Nat.lt_succ_iff.1 s.bytecnt.isLt) (Nat.le_of_succ_le_succ (not_lt.1 h)))
  have hnil : frameEvents s.rspbuf (s.bytecnt.val + 1) = [] :=
    List.eq_nil_of_length_eq_zero (by rw [frameEvents_length, hlast]; rfl)
  rw [State.sendFrame, frameEvents_step, hnil, ← hlast]
  exact dif_neg h

/-- Sending one byte before the last and then the rest is sending the rest. -/
theorem sendByte_sendFrame (h : s.bytecnt.val + 1 < Config.rspLen) : s.sendByte.sendFrame = s.sendFrame := by
  simp [sendByte_of_lt s h, State.sendFrame, frameEvents_step s.rspbuf s.bytecnt]

@[simp] theorem sendByte_host : s.sendByte.host = s.host := by
  by_cases h : s.bytecnt.val + 1 < Config.rspLen
  · rw [sendByte_of_lt s h]
  · rw [sendByte_of_not_lt s h, sendFrame_host]

@[simp] theorem sendByte_slots : s.sendByte.slots = s.slots := by
  by_cases h : s.bytecnt.val + 1 < Config.rspLen
  · rw [sendByte_of_lt s h]
  · rw [sendByte_of_not_lt s h, sendFrame_slots]

/-- The four ends of DECODE, by the request in REQ (R181). -/
theorem decodeDone_cases :
    (decodeWord s.req = .query ∧ s.decodeDone = s.toReport) ∨
    (∃ var snd val, decodeWord s.req = .set var snd val ∧ s.decodeDone = s.toTimestamp var snd val) ∨
    (∃ claimed var snd val, decodeWord s.req = .malformedBadChecksum claimed var snd val ∧
      s.decodeDone = s.rejectChecksum var snd val) ∨
    (∃ w, decodeWord s.req = .malformedBadOpcode w ∧ s.decodeDone = s.rejectOpcode) := by
  cases h : decodeWord s.req <;> simp [State.decodeDone, h]

@[simp] theorem decodeDone_host : s.decodeDone.host = s.host := by
  obtain ⟨_, h⟩ | ⟨_, _, _, _, h⟩ | ⟨_, _, _, _, _, h⟩ | ⟨_, _, h⟩ := decodeDone_cases s <;> simp [h]

@[simp] theorem decodeDone_slots : s.decodeDone.slots = s.slots := by
  obtain ⟨_, h⟩ | ⟨_, _, _, _, h⟩ | ⟨_, _, _, _, _, h⟩ | ⟨_, _, h⟩ := decodeDone_cases s <;> simp [h]

/-- No edge changes how the host will answer. -/
@[simp] theorem edge_host (e : Edge) : (s.edge e).host = s.host := by
  unfold State.edge
  split
  · rfl
  · split <;> split <;> simp

end Sys2Proof.Machine
end

section
/-! SUPPORT. The clocked machine simulates the atomic one (R192, R218): no edge of a transaction changes what the
transaction comes to, whatever the latencies and stalls. -/

namespace Sys2Proof.Machine

/-- An agreeing edge, taken apart: no reset, and every handshake answered at it is one the host answers. -/
theorem agreesWith_iff {h : HostAnswers} {e : Edge} :
    e.agreesWith h = true ↔
      e.pins.rst = false ∧ (e.pins.tsValid = true → h.ts = some e.pins.tsData) ∧
        (e.pins.rspReady = true → h.acceptsFrame = true) ∧ (e.pins.stsReady = true → h.acceptsStatus = true) := by
  simp [Edge.agreesWith, Bool.or_eq_true, imp_iff_not_or, and_assoc]

/-- What an edge from `s` to `s'` keeps of the transaction in progress: if it ends the transaction then `s'` is what
the transaction comes to, and otherwise the two come to the same. -/
def KeepsOutcome (s s' : State) : Prop :=
  if s'.phase = .idle then resume s = .next s' else resume s' = resume s

section
variable {s s' : State}

theorem keepsOutcome_of_busy (hb : s'.phase ≠ .idle) (h : resume s' = resume s) : KeepsOutcome s s' :=
  (if_neg hb).mpr h

theorem keepsOutcome_refl (hb : s.phase ≠ .idle) : KeepsOutcome s s := keepsOutcome_of_busy hb rfl

/-- An edge that holds a busy phase or does its work keeps the outcome if the work does. -/
theorem keepsOutcome_ite {p : Prop} [Decidable p] (hb : s.phase ≠ .idle) (h : p → KeepsOutcome s s') :
    KeepsOutcome s (if p then s' else s) := by
  split
  · exact h ‹_›
  · exact keepsOutcome_refl hb

/-- DECODE hands the transaction on to the arm the dispatcher picks; TS_WAIT finds a SET's operands again in REQ. -/
theorem decodeDone_keepsOutcome (h : s.phase = .decode) : KeepsOutcome s s.decodeDone := by
  have hs := resume_of_decode h
  obtain ⟨hd, hn⟩ | ⟨var, snd, val, hd, hn⟩ | ⟨claimed, var, snd, val, hd, hn⟩ | ⟨w, hd, hn⟩ :=
    decodeDone_cases s <;> rw [finishDecode, hd] at hs <;> rw [hn]
  · exact keepsOutcome_of_busy (by simp) ((resume_of_reportBuild rfl).trans hs.symm)
  · obtain ⟨rfl, rfl, rfl⟩ := reqFields_of_decodeWord_set hd
    refine keepsOutcome_of_busy (by simp) ((resume_of_tsWait (toTimestamp_phase ..)).trans ?_)
    rw [hs, toTimestamp_req]
  · exact keepsOutcome_of_busy (by simp) ((resume_of_status (rejectChecksum_phase ..)).trans hs.symm)
  · exact keepsOutcome_of_busy (by simp) ((resume_of_status rfl).trans hs.symm)

theorem takeTimestamp_keepsOutcome {t : Timestamp} (h : s.phase = .tsWait) (ht : s.host.ts = some t) :
    KeepsOutcome s (s.takeTimestamp t) := by
  refine keepsOutcome_of_busy (by simp) ?_
  rw [resume_of_tsWait h, finishTsWait_of_some s _ _ _ ht]
  exact resume_of_write rfl

theorem writeSlot_keepsOutcome (h : s.phase = .write) :
    KeepsOutcome s (s.writeSlot (reqVar s.req) (reqSender s.req) (reqValue s.req)) :=
  keepsOutcome_of_busy (by simp) ((resume_of_status (writeSlot_phase ..)).trans (resume_of_write h).symm)

theorem buildReport_keepsOutcome (h : s.phase = .reportBuild) : KeepsOutcome s s.buildReport :=
  keepsOutcome_of_busy (by simp) ((resume_of_reportSend (buildReport_phase s)).trans (resume_of_reportBuild h).symm)

/-- One byte of the frame: what is left to send is one shorter, and after the last byte it is the status. -/
theorem sendByte_keepsOutcome (h : s.phase = .reportSend) (hf : s.host.acceptsFrame = true) :
    KeepsOutcome s s.sendByte := by
  have hs : resume s = finishStatus s.sendFrame := (resume_of_reportSend h).trans (if_pos hf)
  by_cases hlt : s.bytecnt.val + 1 < Config.rspLen
  · have hp : s.sendByte.phase = .reportSend := by rw [sendByte_of_lt s hlt]; exact h
    refine keepsOutcome_of_busy (by simp [hp]) ?_
    rw [hs, ← sendByte_sendFrame s hlt, resume_of_reportSend hp]
    exact if_pos (by rw [sendByte_host]; exact hf)
  · rw [sendByte_of_not_lt s hlt]
    exact keepsOutcome_of_busy (by simp) ((resume_of_status rfl).trans hs.symm)

theorem sendStatus_keepsOutcome (h : s.phase = .status) (ha : s.host.acceptsStatus = true) :
    KeepsOutcome s s.sendStatus :=
  (if_pos rfl).mpr ((resume_of_status h).trans (finishStatus_eq_next.2 ⟨ha, rfl⟩))

/-- Every agreeing edge of a transaction keeps its outcome. -/
theorem edge_keepsOutcome {e : Edge} (hb : s.phase ≠ .idle) (he : e.agreesWith s.host = true) :
    KeepsOutcome s (s.edge e) := by
  obtain ⟨hr, hts, hrsp, hsts⟩ := agreesWith_iff.1 he
  cases hp : s.phase with
  | idle => exact absurd hp hb
  | decode => rw [edge_of_decode hr hp]; exact keepsOutcome_ite hb fun _ => decodeDone_keepsOutcome hp
  | tsWait =>
    rw [edge_of_tsWait hr hp]; exact keepsOutcome_ite hb fun hv => takeTimestamp_keepsOutcome hp (hts hv)
  | write => rw [edge_of_write hr hp]; exact keepsOutcome_ite hb fun _ => writeSlot_keepsOutcome hp
  | reportBuild => rw [edge_of_reportBuild hr hp]; exact keepsOutcome_ite hb fun _ => buildReport_keepsOutcome hp
  | reportSend =>
    rw [edge_of_reportSend hr hp]; exact keepsOutcome_ite hb fun hv => sendByte_keepsOutcome hp (hrsp hv)
  | status => rw [edge_of_status hr hp]; exact keepsOutcome_ite hb fun hv => sendStatus_keepsOutcome hp (hsts hv)

/-- A clocked run to the end of the transaction in progress leaves what the transaction comes to. -/
theorem resume_of_runTransaction {es : List Edge} (hb : s.phase ≠ .idle)
    (hes : ∀ e ∈ es, e.agreesWith s.host = true) (hrun : State.runTransaction es s = some s') :
    resume s = .next s' := by
  induction es generalizing s with
  | nil => cases hrun
  | cons e es ih =>
    obtain ⟨he, hes⟩ := List.forall_mem_cons.1 hes
    have hkeep := edge_keepsOutcome hb he
    rw [State.runTransaction] at hrun
    rw [KeepsOutcome] at hkeep
    split at hrun
    case isTrue hidle =>
      cases hrun
      rwa [if_pos hidle] at hkeep
    case isFalse hbusy =>
      rw [if_neg hbusy] at hkeep
      rw [← hkeep]
      exact ih hbusy (by simpa using hes) hrun

/-- The transaction of a well-formed request is the phase machine's from DECODE on (R180, R190). -/
theorem exec_eq_resume_recvRequest {i : Instr} (hwf : i.wf = true) (h : s.phase = .idle) :
    exec i s = resume (s.recvRequest (encodeWord i)) := by
  rw [resume_of_decode (recvRequest_phase ..), finishDecode, recvRequest_req, decodeWord_encodeWord hwf]
  cases i with
  | query => exact exec_query_of_idle h
  | set var snd val => exact exec_set_of_idle h var snd val
  | malformedBadChecksum claimed var snd val => exact exec_malformedBadChecksum_of_idle h claimed var snd val
  | malformedBadOpcode w => exact exec_malformedBadOpcode_of_idle h w

end

end Sys2Proof.Machine

open Sys2Proof Sys2Proof.Machine

/-- Settles O54: the request transfer puts the phase machine in DECODE with the request's word, and from there every
edge keeps the outcome, by induction over the edges. -/
theorem clockedRunIsOneStep : Obligations.ClockedRunIsOneStep := by
  intro i s s' e es hwf hidle hr hv hd hes hrun
  rw [edge_of_idle hr hidle, if_pos hv, hd] at hrun
  rw [exec_eq_resume_recvRequest hwf hidle]
  exact resume_of_runTransaction (by simp) (by simpa using hes) hrun

end

section
/-! SUPPORT. How every transaction ends, and what it keeps of STSREG and SLOT. -/

namespace Sys2Proof.Machine

/-! ### The last transfer of a transaction is its status (R191, R216) -/

/-- The outcome, where it is a next state, is that of a status transfer. -/
def EndsWithStatus (o : Out) : Prop := ∀ s', o = .next s' → ∃ u : State, s' = u.sendStatus

section
variable (s : State)

theorem finishStatus_endsWithStatus : EndsWithStatus (finishStatus s) := fun _ h =>
  let ⟨_, hs⟩ := finishStatus_eq_next.1 h
  ⟨s, hs.symm⟩

theorem finishSend_endsWithStatus : EndsWithStatus (finishSend s) := fun _ h =>
  let ⟨_, _, hs⟩ := finishSend_eq_next.1 h
  ⟨s.sendFrame, hs.symm⟩

theorem finishTsWait_endsWithStatus (var snd val : Byte) : EndsWithStatus (finishTsWait var snd val s) := fun _ h =>
  let ⟨_, _, hw⟩ := finishTsWait_eq_next.1 h
  finishStatus_endsWithStatus _ _ hw

theorem finishDecode_endsWithStatus : EndsWithStatus (finishDecode s) := by
  unfold finishDecode
  split
  · exact finishSend_endsWithStatus _
  · exact finishTsWait_endsWithStatus _ _ _ _
  · exact finishStatus_endsWithStatus _
  · exact finishStatus_endsWithStatus _

theorem resume_endsWithStatus (hb : s.phase ≠ .idle) : EndsWithStatus (resume s) := by
  unfold resume
  split
  next h => exact absurd h hb
  · exact finishDecode_endsWithStatus s
  · exact finishTsWait_endsWithStatus _ _ _ _
  · exact finishStatus_endsWithStatus _
  · exact finishSend_endsWithStatus _
  · exact finishSend_endsWithStatus s
  · exact finishStatus_endsWithStatus s

end

section
variable {i : Instr} {s s' : State}

/-- A request runs only from IDLE (R213, R220). -/
theorem exec_of_busy (hb : s.phase ≠ .idle) : exec i s = .refused .requestWhileBusy := by
  cases i <;> exact if_neg hb

theorem phase_eq_idle_of_exec_eq_next (h : exec i s = .next s') : s.phase = .idle := by
  by_contra hb
  rw [exec_of_busy hb] at h
  cases h

theorem exec_endsWithStatus (i : Instr) (s : State) : EndsWithStatus (exec i s) := by
  intro s' h
  have hidle := phase_eq_idle_of_exec_eq_next h
  cases i with
  | query =>
    rw [exec_query_of_idle hidle] at h
    exact finishSend_endsWithStatus _ _ h
  | set var snd val =>
    rw [exec_set_of_idle hidle] at h
    exact finishTsWait_endsWithStatus _ _ _ _ _ h
  | malformedBadChecksum claimed var snd val =>
    rw [exec_malformedBadChecksum_of_idle hidle] at h
    exact finishStatus_endsWithStatus _ _ h
  | malformedBadOpcode w =>
    rw [exec_malformedBadOpcode_of_idle hidle] at h
    exact finishStatus_endsWithStatus _ _ h

end

/-! ### No transaction reads the STSREG it finds (R34) -/

section
variable (s : State) (b : Byte)

theorem finishBuild_stsreg : finishBuild { s with stsreg := b } = finishBuild s := by
  simp only [finishBuild, buildReport_eq]
  rfl

theorem writeSlot_stsreg (var snd val : Byte) :
    State.writeSlot var snd val { s with stsreg := b } = s.writeSlot var snd val := by
  by_cases h : var.toNat < Config.nSlots
  · simp only [State.writeSlot, tableSet_of_lt h]
  · simp only [State.writeSlot, tableSet_of_not_lt h, State.reject]

theorem finishTsWait_stsreg (var snd val : Byte) :
    finishTsWait var snd val { s with stsreg := b } = finishTsWait var snd val s := by
  cases ht : s.host.ts with
  | none => simp [finishTsWait, ht]
  | some t =>
    rw [finishTsWait_of_some s var snd val ht, finishTsWait_of_some { s with stsreg := b } var snd val ht]
    exact congrArg finishStatus (writeSlot_stsreg (s.takeTimestamp t) b var snd val)

/-- What a request comes to does not depend on the STSREG before it. -/
theorem exec_stsreg {s : State} (hidle : s.phase = .idle) (i : Instr) (b : Byte) :
    exec i { s with stsreg := b } = exec i s := by
  have hidle' : ({ s with stsreg := b } : State).phase = .idle := hidle
  cases i with
  | query =>
    rw [exec_query_of_idle hidle, exec_query_of_idle hidle']
    exact finishBuild_stsreg (s.recvRequest (encodeWord .query)).toReport b
  | set var snd val =>
    rw [exec_set_of_idle hidle, exec_set_of_idle hidle', toTimestamp_eq, toTimestamp_eq]
    exact finishTsWait_stsreg { s.recvRequest (encodeWord (.set var snd val)) with
      ckAcc := setPayload var snd val, phase := .tsWait } b var snd val
  | malformedBadChecksum claimed var snd val =>
    rw [exec_malformedBadChecksum_of_idle hidle, exec_malformedBadChecksum_of_idle hidle', rejectChecksum_eq,
      rejectChecksum_eq]
    rfl
  | malformedBadOpcode w =>
    rw [exec_malformedBadOpcode_of_idle hidle, exec_malformedBadOpcode_of_idle hidle']
    rfl

end

/-! ### What writes SLOT (R22) -/

section
variable {s s' : State}

/-- An entry that writing one entry changes is that entry. -/
theorem getElem_set_ne_self {α : Type} {n k : Nat} {v : Vector α n} {x : α} {hk : k < n} {j : Fin n}
    (h : (v.set k x hk)[j] ≠ v[j]) : k = j.val ∧ (v.set k x hk)[j] = x := by
  by_cases hj : k = j.val
  · exact ⟨hj, by simp [hj]⟩
  · exact absurd (Vector.getElem_set_ne hk j.isLt hj) h

/-- Phase WRITE leaves the table alone or overwrites the one slot its id names. -/
theorem writeSlot_slots_cases (var snd val : Byte) (s : State) :
    (s.writeSlot var snd val).slots = s.slots ∨
      ∃ hv : var.toNat < Config.nSlots, (s.writeSlot var snd val).slots =
        s.slots.set var.toNat { ts := s.tsreg, snd := snd, val := val } hv := by
  obtain ⟨hv, hw⟩ | ⟨_, hw⟩ := writeSlot_cases var snd val s
  · exact .inr ⟨hv, by rw [hw]⟩
  · exact .inl (by rw [hw])

/-- A request leaves the table alone, or is a SET that overwrites the one slot its id names. -/
theorem exec_slots {i : Instr} (h : exec i s = .next s') :
    s'.slots = s.slots ∨
      ∃ (var snd val : Byte) (t : Timestamp) (hv : var.toNat < Config.nSlots),
        i = .set var snd val ∧ s.host.ts = some t ∧
          s'.slots = s.slots.set var.toNat { ts := t, snd := snd, val := val } hv := by
  have hidle := phase_eq_idle_of_exec_eq_next h
  cases i with
  | query =>
    rw [exec_query_of_idle hidle] at h
    obtain ⟨_, _, rfl⟩ := finishSend_eq_next.1 h
    exact .inl (by simp)
  | set var snd val =>
    rw [exec_set_of_idle hidle] at h
    obtain ⟨t, ht, h⟩ := finishTsWait_eq_next.1 h
    obtain ⟨_, rfl⟩ := finishWrite_eq_next.1 h
    rw [toTimestamp_host, recvRequest_host] at ht
    obtain hw | ⟨hv, hw⟩ := writeSlot_slots_cases var snd val
      (((s.recvRequest (encodeWord (.set var snd val))).toTimestamp var snd val).takeTimestamp t)
    · exact .inl (by simpa using hw)
    · exact .inr ⟨var, snd, val, t, hv, rfl, ht, by simpa using hw⟩
  | malformedBadChecksum claimed var snd val =>
    rw [exec_malformedBadChecksum_of_idle hidle] at h
    obtain ⟨_, rfl⟩ := finishStatus_eq_next.1 h
    exact .inl (by simp)
  | malformedBadOpcode w =>
    rw [exec_malformedBadOpcode_of_idle hidle] at h
    obtain ⟨_, rfl⟩ := finishStatus_eq_next.1 h
    exact .inl (by simp)

theorem slots_ite {p : Prop} [Decidable p] (h : s'.slots = s.slots) : (if p then s' else s).slots = s.slots := by
  split
  · exact h
  · rfl

/-- An edge that changes SLOT resets, or is the one that ends WRITE (log entry 26) and overwrites the one slot that REQ
names. -/
theorem edge_slots (s : State) (e : Edge) :
    (s.edge e).slots = s.slots ∨ e.pins.rst = true ∨
      (s.phase = .write ∧ e.done = true ∧ ∃ hv : (reqVar s.req).toNat < Config.nSlots,
        (s.edge e).slots = s.slots.set (reqVar s.req).toNat
          { ts := s.tsreg, snd := reqSender s.req, val := reqValue s.req } hv) := by
  cases hr : e.pins.rst with
  | true => exact .inr (.inl rfl)
  | false =>
    cases hp : s.phase with
    | write =>
      rw [edge_of_write hr hp]
      cases hd : e.done with
      | true =>
        rw [if_pos rfl]
        exact (writeSlot_slots_cases ..).imp_right fun hw => .inr ⟨rfl, rfl, hw⟩
      | false => exact .inl rfl
    | idle => exact .inl (edge_of_idle hr hp ▸ slots_ite (recvRequest_slots ..))
    | decode => exact .inl (edge_of_decode hr hp ▸ slots_ite (decodeDone_slots s))
    | tsWait => exact .inl (edge_of_tsWait hr hp ▸ slots_ite (takeTimestamp_slots ..))
    | reportBuild => exact .inl (edge_of_reportBuild hr hp ▸ slots_ite (buildReport_slots s))
    | reportSend => exact .inl (edge_of_reportSend hr hp ▸ slots_ite (sendByte_slots s))
    | status => exact .inl (edge_of_status hr hp ▸ slots_ite (sendStatus_slots s))

theorem reset_slots_getElem {j : Fin Config.nSlots} : State.reset.slots[j] = { ts := 0, snd := 0, val := 0 } :=
  Vector.getElem_replicate j.isLt

end

end Sys2Proof.Machine

open Sys2Proof Sys2Proof.Machine

/-- Settles O36, by what a step can be: a wait and a reset are in IDLE, and a transaction, run from its start or
resumed, ends with a status transfer. -/
theorem everyStepEndsIdle : Obligations.EveryStepEndsIdle := by
  intro s s' h
  obtain ⟨_, hidle, rfl⟩ | ⟨rest, _, rfl⟩ | ⟨_, hbusy, h⟩ | ⟨p, a, rest, i, _, _, _, h⟩ := step_cases h
  · exact hidle
  · exact coreReset_phase _
  · obtain ⟨u, rfl⟩ := resume_endsWithStatus s hbusy s' h
    exact sendStatus_phase u
  · obtain ⟨u, rfl⟩ := exec_endsWithStatus i _ s' h
    exact sendStatus_phase u

/-- Settles O37: in the atomic and in the clocked machine alike, phase WRITE is all that changes a slot but reset. -/
theorem onlyAcceptedSetsWriteSlots : Obligations.OnlyAcceptedSetsWriteSlots := by
  constructor
  · intro i s s' j h hne
    obtain hs | ⟨v, n, x, t, _, rfl, hts, hs⟩ := exec_slots h <;> rw [hs] at hne ⊢
    · exact absurd rfl hne
    · obtain ⟨hv, hslot⟩ := getElem_set_ne_self hne
      exact ⟨v, n, x, t, rfl, hv, hts, hslot⟩
  · intro e s j hne
    obtain hs | hr | ⟨hp, hd, _, hs⟩ := edge_slots s e
    · exact absurd (by rw [hs]) hne
    · exact .inl hr
    · rw [hs] at hne ⊢
      obtain ⟨hv, hslot⟩ := getElem_set_ne_self hne
      exact .inr ⟨hp, hd, hv, hslot⟩

/-- Settles O56: the status transfer overwrites STSREG, every request ends with one, and each decides its status
without reading STSREG. -/
theorem statusByteIsNotRetained : Obligations.StatusByteIsNotRetained := by
  constructor
  · intro s e b hp hr hv
    have hedge : State.edge e { s with stsreg := b } = State.sendStatus { s with stsreg := b } :=
      (edge_of_status (s := { s with stsreg := b }) hr hp).trans (if_pos hv)
    rw [hedge, edge_of_status hr hp, if_pos hv]
    rfl
  · intro i s s' b h
    obtain ⟨u, rfl⟩ := exec_endsWithStatus i s s' h
    exact ⟨sendStatus_stsreg u, (exec_stsreg (phase_eq_idle_of_exec_eq_next h) i b).trans h⟩

/-- Settles O14: the engine starts on empty accumulators and each byte fed is appended to them. -/
theorem engineComputesChecksum : Obligations.EngineComputesChecksum := by
  intro s bs
  have hrun : bs.foldl State.ckFeed s.ckStart = { s with ckAcc := bs } := ckRun_eq s bs
  rw [hrun]
  exact ⟨rfl, rfl⟩

/-- Settles O42: an edge with `rst = 1` is the core's reset, whatever the state. -/
theorem resetClearsEverySlot : Obligations.ResetClearsEverySlot := by
  refine ⟨rfl, fun _ => reset_slots_getElem, fun s e hr => ?_⟩
  rw [edge_of_rst hr]
  exact ⟨coreReset_phase s, coreReset_trace s, fun _ => reset_slots_getElem⟩

/-- Settles O43, each output by its own equation in PHASE. -/
theorem handshakeOutputsFollowPhase : Obligations.HandshakeOutputsFollowPhase := by
  refine ⟨fun d s => ⟨beq_iff_eq, beq_iff_eq, beq_iff_eq, beq_iff_eq⟩, fun d => ⟨rfl, rfl, rfl, rfl⟩, ?_⟩
  exact fun d s => ⟨fun h => ⟨if_neg h, if_neg h⟩, fun h => if_neg h⟩

end

section
/-! The slot register file: which ids name a slot (O19). -/

namespace Sys2Proof.Machine

/-- R41: an id below 64 selects the slot of its own number. -/
theorem slotIndex_of_lt {var : Byte} (h : var.toNat < Config.nSlots) : slotIndex var = some ⟨var.toNat, h⟩ :=
  dif_pos h

/-- R41: an id of 64 or more selects no slot. -/
theorem slotIndex_of_not_lt {var : Byte} (h : ¬ var.toNat < Config.nSlots) : slotIndex var = none :=
  dif_neg h

end Sys2Proof.Machine

open Sys2Proof Sys2Proof.Machine

/-- Settles O19, by the two branches of the index map; an id out of range leaves the whole state as it was. -/
theorem variableIdsSelectSlots : Obligations.VariableIdsSelectSlots := by
  intro v
  refine ⟨fun h => slotIndex_of_lt (Nat.lt_succ_of_le h), fun h => ?_⟩
  have hout : ¬ v.toNat < Config.nSlots := Nat.not_lt.2 h
  exact ⟨slotIndex_of_not_lt hout, fun snd val t s => by rw [tableSet_of_not_lt hout]⟩

end

section
/-! SUPPORT. The decoder by classes of words and its agreement with the encoder; where a record stands in the frame. -/

namespace Sys2Proof.Machine

/-! ### A request word and its bytes -/

/-- R61, R63: the token's bytes are those of the token's word and of no other. -/
theorem bytesLE64_eq_queryToken_iff {w : ReqWord} : bytesLE64 w = queryToken ↔ w = queryWord := by
  constructor
  · intro h
    rw [← le64_bytesLE64 w, h]
    decide
  · rintro rfl
    decide

/-- Format S (R62, R63): the bytes of a word are those of its claimed checksum, then its four one-byte fields. -/
theorem bytesLE64_eq_fields (w : ReqWord) :
    bytesLE64 w = bytesLE32 (reqClaimed w) ++ [reqOpcode w, reqVar w, reqSender w, reqValue w] := by
  rw [reqClaimed_eq_le32, bytesLE32_le32]
  rfl

theorem bytesLE64_le64_of_length {p : List Byte} (h : p.length = reqLen) : bytesLE64 (le64 p) = p := by
  match p, h with
  | [_, _, _, _, _, _, _, _], _ => exact bytesLE64_le64 ..

/-! ### The decoder, class by class -/

/-- The checks of R122 in their order, on the fields of a word. -/
theorem decodeWordWith_eq (c : List Byte → Checksum) (w : ReqWord) :
    decodeWordWith c w =
      if w = queryWord then .query
      else if reqOpcode w ≠ opSet then .malformedBadOpcode w
      else if c (setPayload (reqVar w) (reqSender w) (reqValue w)) ≠ reqClaimed w then
        .malformedBadChecksum (reqClaimed w) (reqVar w) (reqSender w) (reqValue w)
      else .set (reqVar w) (reqSender w) (reqValue w) := by
  by_cases hq : w = queryWord
  · exact (if_pos (bytesLE64_eq_queryToken_iff.2 hq)).trans (if_pos hq).symm
  rw [if_neg hq]
  by_cases hop : reqOpcode w = opSet
  · rw [if_neg (not_not.2 hop), reqClaimed_eq_le32, ← decodeBytes_opSet, ← hop]
    rfl
  · rw [if_pos hop]
    exact decodeWordWith_badOpcode c hq hop

/-- Eight bytes decode as their word does (R63, R121). -/
theorem decodeWith_of_length (c : List Byte → Checksum) {p : List Byte} (h : p.length = reqLen) :
    decodeWith c p = .ok (decodeWordWith c (le64 p)) := by
  match p, h with
  | [p0, p1, p2, p3, p4, p5, p6, p7], _ => rw [decodeWordWith_le64]; rfl

/-- Only eight bytes decode (R121, R127). -/
theorem length_of_decodeWith_eq_ok {c : List Byte → Checksum} {p : List Byte} {i : Instr}
    (h : decodeWith c p = .ok i) : p.length = reqLen := by
  unfold decodeWith at h
  split at h
  · rfl
  · cases h

/-! ### The encoder on what the decoder answers -/

theorem encodeWith_length (c : List Byte → Checksum) : ∀ i : Instr, (encodeWith c i).length = reqLen
  | .query => Laws.EncodeLength.query c
  | .set var snd val => Laws.EncodeLength.set var snd val c
  | .malformedBadChecksum claimed var snd val => Laws.EncodeLength.malformedBadChecksum claimed var snd val c
  | .malformedBadOpcode w => Laws.EncodeLength.malformedBadOpcode w c

/-- R60, R67: the request a word decodes to meets its row's guard and holds every bit of the word. -/
theorem encodeWith_decodeWordWith (c : List Byte → Checksum) (w : ReqWord) :
    encodeWith c (decodeWordWith c w) = bytesLE64 w ∧ (decodeWordWith c w).wfWith c = true := by
  rw [decodeWordWith_eq]
  split_ifs with hq hop hck
  · exact ⟨(bytesLE64_eq_queryToken_iff.2 hq).symm, rfl⟩
  · exact ⟨rfl, by simp [Instr.wfWith, hq, hop]⟩
  · rw [bytesLE64_eq_fields, not_not.1 hop]
    exact ⟨rfl, bne_iff_ne.2 (Ne.symm hck)⟩
  · rw [bytesLE64_eq_fields, not_not.1 hop, ← not_not.1 hck]
    exact ⟨rfl, rfl⟩

/-! ### Records in the frame -/

/-- Where every piece has `n` elements, element `j` of piece `i` stands at `n * i + j`. -/
theorem getElem?_flatMap_of_length_eq {α β : Type} {f : α → List β} {n : Nat} (hf : ∀ a, (f a).length = n)
    (l : List α) {i j : Nat} (hi : i < l.length) (hj : j < n) : (l.flatMap f)[n * i + j]? = (f l[i])[j]? := by
  induction l generalizing i with
  | nil => simp at hi
  | cons a l ih =>
    cases i with
    | zero => simp [List.getElem?_append_left, hf, hj]
    | succ k =>
      have hle : (f a).length ≤ n * (k + 1) + j := by rw [hf, Nat.mul_succ]; omega
      have hoff : n * (k + 1) + j - n = n * k + j := by rw [Nat.mul_succ]; omega
      rw [List.flatMap_cons, List.getElem?_append_right hle, hf, hoff]
      exact ih (Nat.lt_of_succ_lt_succ hi)

theorem record_length (v : Slot) : (record v).length = 4 := rfl

/-- R69: after the four checksum bytes the frame is the payload. -/
theorem framePayload_encodeReportWith (c : List Byte → Checksum) (t : Vector Slot Config.nSlots) :
    framePayload (encodeReportWith c t) = payload t := rfl

/-- R69, R70: byte `j` of slot `i`'s record stands at offset `4 + 4i + j` of the frame. -/
theorem encodeReportWith_getElem?_record (c : List Byte → Checksum) (t : Vector Slot Config.nSlots)
    (i : Fin Config.nSlots) {j : Nat} (hj : j < 4) :
    (encodeReportWith c t).toList[4 + 4 * i.val + j]? = (record t[i])[j]? := by
  calc (encodeReportWith c t).toList[4 + 4 * i.val + j]?
      = (framePayload (encodeReportWith c t))[4 * i.val + j]? := by
        rw [framePayload, List.getElem?_drop, Nat.add_assoc]
    _ = (payload t)[4 * i.val + j]? := by rw [framePayload_encodeReportWith]
    _ = (record t[i])[j]? :=
        getElem?_flatMap_of_length_eq record_length t.toList (i := i.val) (by simp) hj

end Sys2Proof.Machine

open Sys2Proof Sys2Proof.Machine

/-- Settles O1: an encoding is 8 bytes long, and its word decodes to the request, by the cases of the request. -/
theorem decodeReversesEncode : Obligations.DecodeReversesEncode := by
  intro c i hwf
  rw [decodeWith_of_length c (encodeWith_length c i), decodeWordWith_le64_encodeWith c hwf]

/-- Settles O2: only 8 bytes decode, they are the bytes of their word, and a word's request encodes to the word. -/
theorem encodeReversesDecode : Obligations.EncodeReversesDecode := by
  intro c p i h
  have hlen := length_of_decodeWith_eq_ok h
  obtain rfl : decodeWordWith c (le64 p) = i := Except.ok.inj ((decodeWith_of_length c hlen).symm.trans h)
  obtain ⟨henc, hwf⟩ := encodeWith_decodeWordWith c (le64 p)
  exact ⟨henc.trans (bytesLE64_le64_of_length hlen), hwf⟩

/-- Settles O5, by the order of the decoder's checks. -/
theorem eachWordHasOneClass : Obligations.EachWordHasOneClass := decodeWordWith_eq

/-- Settles O15: the four offsets are those of bytes 0 to 3 of one record. -/
theorem recordBytesInFrame : Obligations.RecordBytesInFrame := by
  intro c t i
  have hbyte (j : Nat) (hj : j < 4) :
      (encodeReportWith c t).toList[4 + j + 4 * i.val]? = (record t[i])[j]? := by
    rw [Nat.add_right_comm]
    exact encodeReportWith_getElem?_record c t i hj
  exact ⟨rfl, hbyte 0 (by decide), hbyte 1 (by decide), hbyte 2 (by decide), hbyte 3 (by decide)⟩

end

section
/-! SUPPORT. The two sums of Adler-32 and the halves of its checksum, the closed form on four bytes, and which words are
SETs. -/

namespace Sys2Proof.Machine

/-! ### The two sums of R107 -/

/-- The pair `(a, b)` of R107 after the bytes `bs`, started at `(1, 0)`. -/
def adlerSums (bs : List Byte) : Nat × Nat := bs.foldl adlerByte (1, 0)

theorem adler32_eq_ofNat (bs : List Byte) :
    adler32 bs = BitVec.ofNat 32 ((adlerSums bs).2 * 65536 + (adlerSums bs).1) := rfl

@[simp] theorem adlerSums_concat (bs : List Byte) (x : Byte) :
    adlerSums (bs ++ [x]) = adlerByte (adlerSums bs) x := List.foldl_concat ..

/-- Both sums stay reduced modulo 65521. -/
theorem adlerSums_lt (bs : List Byte) : (adlerSums bs).1 < 65521 ∧ (adlerSums bs).2 < 65521 := by
  cases bs using List.reverseRecOn with
  | nil => decide
  | append_singleton bs x =>
    rw [adlerSums_concat]
    exact ⟨Nat.mod_lt _ (by decide), Nat.mod_lt _ (by decide)⟩

/-- A zero byte leaves `a = 1` and adds 1 to `b`. -/
theorem adlerSums_zeros (n : Nat) : adlerSums (zeros n) = (1, n % 65521) := by
  induction n with
  | zero => rfl
  | succ n ih =>
    have hsnoc : zeros (n + 1) = zeros n ++ [0] := List.replicate_succ'
    rw [hsnoc, adlerSums_concat, ih]
    simp [adlerByte]

/-! ### The checksum as a number and its halves -/

/-- The two sums fill the two halves of the checksum, so that nothing is lost in 32 bits. -/
theorem adler32_toNat (bs : List Byte) : (adler32 bs).toNat = (adlerSums bs).2 * 65536 + (adlerSums bs).1 := by
  have ⟨ha, hb⟩ := adlerSums_lt bs
  rw [adler32_eq_ofNat, BitVec.toNat_ofNat]
  omega

theorem halves_of_toNat_eq {v : Checksum} {a b : Nat} (h : v.toNat = b * 65536 + a) (ha : a < 65536) :
    (v.extractLsb' 0 16).toNat = a ∧ (v.extractLsb' 16 16).toNat = b := by
  have := v.isLt
  simp only [BitVec.extractLsb'_toNat, Nat.shiftRight_eq_div_pow]
  omega

/-- The halves of a checksum are the sums (R107). -/
theorem adler32_halves (bs : List Byte) :
    ((adler32 bs).extractLsb' 0 16).toNat = (adlerSums bs).1 ∧
      ((adler32 bs).extractLsb' 16 16).toNat = (adlerSums bs).2 :=
  halves_of_toNat_eq (adler32_toNat bs) ((adlerSums_lt bs).1.trans (by decide))

theorem reqClaimed_low (w : ReqWord) : (reqClaimed w).extractLsb' 0 16 = w.extractLsb' 0 16 := by
  ext i hi
  simp [reqClaimed]

theorem reqClaimed_high (w : ReqWord) : (reqClaimed w).extractLsb' 16 16 = w.extractLsb' 16 16 := by
  ext i hi
  simp [reqClaimed]

/-! ### Four bytes, under CK_SMALL_ADLER -/

/-- Four bytes are too few for either sum to reach 65521 (R111). -/
theorem adlerSums_four (p0 p1 p2 p3 : Byte) :
    adlerSums [p0, p1, p2, p3] =
      (1 + p0.toNat + p1.toNat + p2.toNat + p3.toNat,
        4 + 4 * p0.toNat + 3 * p1.toNat + 2 * p2.toNat + p3.toNat) := by
  have h0 := p0.isLt
  have h1 := p1.isLt
  have h2 := p2.isLt
  have h3 := p3.isLt
  simp only [adlerSums, List.foldl_cons, List.foldl_nil, adlerByte, Prod.mk.injEq]
  omega

section
variable {c : List Byte → Checksum} (hc : CkSmallAdler c)
include hc

theorem toNat_four_of_ckSmallAdler (p0 p1 p2 p3 : Byte) :
    (c [p0, p1, p2, p3]).toNat =
      (4 + 4 * p0.toNat + 3 * p1.toNat + 2 * p2.toNat + p3.toNat) * 65536 +
        (1 + p0.toNat + p1.toNat + p2.toNat + p3.toNat) := by
  rw [hc _ rfl, adler32_toNat, adlerSums_four]

/-- R111 on a SET payload, whose first byte is 0xF1 = 241. -/
theorem toNat_setPayload_of_ckSmallAdler (var snd val : Byte) :
    (c (setPayload var snd val)).toNat =
      (968 + 3 * var.toNat + 2 * snd.toNat + val.toNat) * 65536 +
        (242 + var.toNat + snd.toNat + val.toNat) :=
  toNat_four_of_ckSmallAdler hc opSet var snd val

theorem setPayload_three_four_five_of_ckSmallAdler : c (setPayload 3 4 5) = 0x03DE00FE :=
  BitVec.eq_of_toNat_eq (toNat_setPayload_of_ckSmallAdler hc 3 4 5)

/-- R112: a claimed checksum that is right has its halves in the ranges. -/
theorem claimed_halves_of_ckSmallAdler {w : ReqWord}
    (hck : c (setPayload (reqVar w) (reqSender w) (reqValue w)) = reqClaimed w) :
    242 ≤ (w.extractLsb' 0 16).toNat ∧ (w.extractLsb' 0 16).toNat ≤ 1007 ∧
      968 ≤ (w.extractLsb' 16 16).toNat ∧ (w.extractLsb' 16 16).toNat ≤ 2498 := by
  have hv := (reqVar w).isLt
  have hs := (reqSender w).isLt
  have hx := (reqValue w).isLt
  have hclaimed := toNat_setPayload_of_ckSmallAdler hc (reqVar w) (reqSender w) (reqValue w)
  rw [hck] at hclaimed
  obtain ⟨hlow, hhigh⟩ := halves_of_toNat_eq hclaimed (by omega)
  rw [reqClaimed_low] at hlow
  rw [reqClaimed_high] at hhigh
  omega

end

/-! ### The words that are SETs -/

/-- With opcode 0xF1 the comparison of R125 alone decides. -/
theorem decodeWordWith_opSet (c : List Byte → Checksum) {w : ReqWord} (hop : reqOpcode w = opSet) :
    decodeWordWith c w =
      if c (setPayload (reqVar w) (reqSender w) (reqValue w)) ≠ reqClaimed w then
        .malformedBadChecksum (reqClaimed w) (reqVar w) (reqSender w) (reqValue w)
      else .set (reqVar w) (reqSender w) (reqValue w) := by
  have hq : w ≠ queryWord := by
    rintro rfl
    exact absurd hop (by decide)
  rw [decodeWordWith_eq, if_neg hq, if_neg (not_not.2 hop)]

theorem bytesLE32_injective : Function.Injective bytesLE32 := by
  intro k k' h
  simp only [bytesLE32, List.cons.injEq, and_true] at h
  obtain ⟨h0, h1, h2, h3⟩ := h
  rw [← le32_bytesLE32 k, ← le32_bytesLE32 k', h0, h1, h2, h3]

/-- The word of the SET with the given operands, whose claimed checksum is right (R62, R72). -/
def setWordWith (c : List Byte → Checksum) (ops : Byte × Byte × Byte) : ReqWord :=
  le64 (encodeWith c (.set ops.1 ops.2.1 ops.2.2))

theorem decodeWordWith_setWordWith (c : List Byte → Checksum) (ops : Byte × Byte × Byte) :
    decodeWordWith c (setWordWith c ops) = .set ops.1 ops.2.1 ops.2.2 :=
  decodeWordWith_le64_encodeWith c rfl

theorem setWordWith_injective (c : List Byte → Checksum) : Function.Injective (setWordWith c) := by
  intro ops ops' h
  have hdec := congrArg (decodeWordWith c) h
  simp only [decodeWordWith_setWordWith, Instr.set.injEq] at hdec
  obtain ⟨hv, hs, hx⟩ := hdec
  exact Prod.ext hv (Prod.ext hs hx)

/-- The words that decode as a SET are the words of the SETs, one for each `(V, S, X)`. -/
theorem isSetInstr_decodeWordWith_iff (c : List Byte → Checksum) (w : ReqWord) :
    isSetInstr (decodeWordWith c w) = true ↔ w ∈ Set.range (setWordWith c) := by
  constructor
  · intro h
    obtain ⟨henc, -⟩ := encodeWith_decodeWordWith c w
    generalize decodeWordWith c w = i at h henc
    cases i with
    | set var snd val => exact ⟨(var, snd, val), (congrArg le64 henc).trans (le64_bytesLE64 w)⟩
    | query | malformedBadChecksum | malformedBadOpcode => cases h
  · rintro ⟨ops, rfl⟩
    rw [decodeWordWith_setWordWith]
    rfl

theorem card_byte : Nat.card Byte = 2 ^ 8 :=
  (Nat.card_congr BitVec.equivFin.toEquiv).trans (Nat.card_fin _)

/-- R112, R127: for every `CK`, as many requests are SETs as there are triples `(V, S, X)`. -/
theorem ncard_isSetInstr_decodeWordWith (c : List Byte → Checksum) :
    Set.ncard {w : ReqWord | isSetInstr (decodeWordWith c w) = true} = 2 ^ 24 := by
  calc Set.ncard {w : ReqWord | isSetInstr (decodeWordWith c w) = true}
      = (Set.range (setWordWith c)).ncard := congrArg Set.ncard (Set.ext (isSetInstr_decodeWordWith_iff c))
    _ = Nat.card (Byte × Byte × Byte) := by
      rw [← Set.image_univ, Set.ncard_image_of_injective _ (setWordWith_injective c), Set.ncard_univ]
    _ = 2 ^ 8 * (2 ^ 8 * 2 ^ 8) := by rw [Nat.card_prod, Nat.card_prod, card_byte]
    _ = 2 ^ 24 := by decide

end Sys2Proof.Machine

open Sys2Proof Sys2Proof.Machine

/-- Settles O11: the halves of a checksum are the two sums, which one more byte takes through one step of R107. -/
theorem adlerRecurrence : Obligations.AdlerRecurrence := by
  refine ⟨rfl, fun n => ?_, fun bs x => ?_⟩
  · rw [adler32_eq_ofNat, adlerSums_zeros]
  · obtain ⟨hlow, hhigh⟩ := adler32_halves bs
    rw [hlow, hhigh, adler32_eq_ofNat, adlerSums_concat]
    rfl

/-- Settles O12: no sum over four bytes is ever reduced, and the bounds are linear in bytes below 256. -/
theorem smallAdlerClosedForm : Obligations.SmallAdlerClosedForm := by
  intro c hc
  have hex := setPayload_three_four_five_of_ckSmallAdler hc
  refine ⟨fun p0 p1 p2 p3 => ⟨toNat_four_of_ckSmallAdler hc p0 p1 p2 p3, ?_⟩,
    fun v n x => ⟨toNat_setPayload_of_ckSmallAdler hc v n x, ?_⟩, hex, ?_⟩
  · omega
  · omega
  · rw [encodeWith, hex]
    decide

/-- Settles O13: a SET's claimed checksum is that of its payload, whose halves lie in the ranges; it is the only one
accepted, and a SET's operands determine its word. -/
theorem claimedChecksumOfASet : Obligations.ClaimedChecksumOfASet := by
  refine ⟨fun c hc w hop => ?_, fun c v n x => ?_, ncard_isSetInstr_decodeWordWith⟩
  · rw [decodeWordWith_opSet c hop]
    by_cases hck : c (setPayload (reqVar w) (reqSender w) (reqValue w)) = reqClaimed w
    · have hrange := claimed_halves_of_ckSmallAdler hc hck
      exact ⟨fun _ => hrange, fun hout => absurd hrange hout⟩
    · rw [if_pos hck]
      exact ⟨nofun, fun _ => rfl⟩
  · refine ⟨c (setPayload v n x), decodeReversesEncode c (.set v n x) rfl, fun k hk => ?_⟩
    obtain ⟨henc, -⟩ := encodeReversesDecode c _ _ hk
    exact bytesLE32_injective (List.append_cancel_right henc).symm

end

section
/-! SUPPORT. The decoder on other opcodes and other lengths; how many words are QUERY and how many MALFORMED. -/

namespace Sys2Proof.Machine

/-- R66: byte 4 of the token is not 0xF1. -/
theorem reqOpcode_queryWord_ne_opSet : reqOpcode queryWord ≠ opSet := by decide

/-- With another opcode the comparison with the token alone decides (R122). -/
theorem decodeWordWith_of_opcode_ne (c : List Byte → Checksum) {w : ReqWord} (hop : reqOpcode w ≠ opSet) :
    decodeWordWith c w = if w = queryWord then .query else .malformedBadOpcode w := by
  rw [decodeWordWith_eq, if_pos hop]

/-- Any other length is refused as FRAMING (R121, R127). -/
theorem decodeWith_of_length_ne (c : List Byte → Checksum) {p : List Byte} (h : p.length ≠ reqLen) :
    decodeWith c p = .error .framing := by
  unfold decodeWith
  split
  · exact absurd rfl h
  · rfl

/-- R61, R122: the token's word, and no other, is a QUERY. -/
theorem decodeWordWith_eq_query_iff (c : List Byte → Checksum) {w : ReqWord} :
    decodeWordWith c w = .query ↔ w = queryWord := by
  refine ⟨fun h => ?_, fun h => by rw [decodeWordWith_eq, if_pos h]⟩
  obtain ⟨henc, -⟩ := encodeWith_decodeWordWith c w
  rw [h] at henc
  exact bytesLE64_eq_queryToken_iff.1 henc.symm

theorem isMalformedInstr_iff (i : Instr) : isMalformedInstr i = true ↔ ¬ (i = .query ∨ isSetInstr i = true) := by
  cases i <;> simp [isMalformedInstr, isSetInstr]

theorem card_reqWord : Nat.card ReqWord = 2 ^ 64 :=
  (Nat.card_congr BitVec.equivFin.toEquiv).trans (Nat.card_fin _)

theorem ncard_decodeWordWith_eq_query (c : List Byte → Checksum) :
    Set.ncard {w : ReqWord | decodeWordWith c w = .query} = 1 := by
  calc Set.ncard {w : ReqWord | decodeWordWith c w = .query}
      = ({queryWord} : Set ReqWord).ncard := congrArg Set.ncard (Set.ext fun _ => decodeWordWith_eq_query_iff c)
    _ = 1 := Set.ncard_singleton queryWord

/-- R66: the token is no SET, whatever `CK` is. -/
theorem isSetInstr_decodeWordWith_queryWord (c : List Byte → Checksum) :
    isSetInstr (decodeWordWith c queryWord) = false := by
  rw [(decodeWordWith_eq_query_iff c).2 rfl]
  rfl

/-- R127: the MALFORMED requests are the words left when the token and the SETs are taken out. -/
theorem setOf_isMalformedInstr_eq (c : List Byte → Checksum) :
    {w : ReqWord | isMalformedInstr (decodeWordWith c w) = true} =
      (insert queryWord {w : ReqWord | isSetInstr (decodeWordWith c w) = true})ᶜ :=
  Set.ext fun _ => (isMalformedInstr_iff _).trans (not_congr (or_congr_left (decodeWordWith_eq_query_iff c)))

theorem ncard_isMalformedInstr_decodeWordWith (c : List Byte → Checksum) :
    Set.ncard {w : ReqWord | isMalformedInstr (decodeWordWith c w) = true} = 2 ^ 64 - 2 ^ 24 - 1 := by
  have htoken : queryWord ∉ {w : ReqWord | isSetInstr (decodeWordWith c w) = true} :=
    Bool.eq_false_iff.1 (isSetInstr_decodeWordWith_queryWord c)
  rw [setOf_isMalformedInstr_eq, Set.ncard_compl, Set.ncard_insert_of_notMem htoken,
    ncard_isSetInstr_decodeWordWith, card_reqWord, Nat.sub_add_eq]

end Sys2Proof.Machine

open Sys2Proof Sys2Proof.Machine

/-- Settles O6: with opcode 0xF1 a word is not the token, and with another opcode only the token check is left. -/
theorem queryAndSetAreDisjoint : Obligations.QueryAndSetAreDisjoint := by
  refine ⟨by decide, fun c w => ⟨?_, ?_⟩⟩
  · rintro ⟨rfl, hop⟩
    exact reqOpcode_queryWord_ne_opSet hop
  · unfold decodeOpcodeFirst
    by_cases hop : reqOpcode w = opSet
    · rw [if_pos hop, decodeWordWith_opSet c hop]
    · rw [if_neg hop, decodeWordWith_of_opcode_ne c hop]

/-- Settles O7: the QUERY and the SETs are counted, and MALFORMED is every other word. -/
theorem requestCounts : Obligations.RequestCounts := fun c =>
  ⟨ncard_decodeWordWith_eq_query c, ncard_isSetInstr_decodeWordWith c, ncard_isMalformedInstr_decodeWordWith c⟩

/-- Settles O3, by the two cases of the length. -/
theorem decoderRefusesOnlyOtherLengths : Obligations.DecoderRefusesOnlyOtherLengths := by
  intro c p
  split
  next hlen => exact ⟨_, decodeWith_of_length c hlen⟩
  next hlen => exact decodeWith_of_length_ne c hlen

/-- Settles O8: each byte sequence is the encoding of its request, a SET's once its claimed checksum is computed. -/
theorem specWordsDecode : Obligations.SpecWordsDecode := by
  refine ⟨decodeReversesEncode ck .query rfl,
    decodeReversesEncode ck (.malformedBadOpcode 0x6B4F756F79657241) (by decide),
    decodeReversesEncode ck (.malformedBadOpcode 0x3837363534333231) (by decide), fun c hc => ?_⟩
  have hck := setPayload_three_four_five_of_ckSmallAdler hc
  have hck64 : c (setPayload 64 0 0) = 0x04880132 :=
    BitVec.eq_of_toNat_eq (toNat_setPayload_of_ckSmallAdler hc 64 0 0)
  have hbad : (Instr.malformedBadChecksum 0x03DE00FF 3 4 5).wfWith c = true := by
    rw [Instr.wfWith, hck]
    decide
  have hset := decodeReversesEncode c (.set 3 4 5) rfl
  have hset64 := decodeReversesEncode c (.set 64 0 0) rfl
  rw [encodeWith, hck] at hset
  rw [encodeWith, hck64] at hset64
  exact ⟨hset, decodeReversesEncode c _ hbad, hset64⟩

end

section
/-! The table write and SETs in a row (O20, O21, O40). -/

namespace Sys2Proof.Machine

/-- The table after a table write depends on nothing of the state but the table before it. -/
theorem tableSet_slots_congr {s s' : State} (h : s.slots = s'.slots) (var snd val : Byte) (t : Timestamp) :
    (s.tableSet var snd val t).2.slots = (s'.tableSet var snd val t).2.slots := by
  by_cases hv : var.toNat < Config.nSlots
  · simp only [tableSet_of_lt hv, h]
  · simpa only [tableSet_of_not_lt hv] using h

/-- R183: phase WRITE does one table write with the timestamp in TSREG, whatever the id. -/
theorem writeSlot_slots (var snd val : Byte) (s : State) :
    (s.writeSlot var snd val).slots = (s.tableSet var snd val s.tsreg).2.slots := by
  by_cases hv : var.toNat < Config.nSlots
  · simp only [State.writeSlot, tableSet_of_lt hv]
  · simp only [State.writeSlot, tableSet_of_not_lt hv, reject_slots]

/-- R183: on the table a completed SET is one table write with the timestamp that the host gave. -/
theorem exec_set_slots {s s' : State} {var snd val : Byte} (h : exec (.set var snd val) s = .next s') :
    ∃ t, s.host.ts = some t ∧ s'.slots = (s.tableSet var snd val t).2.slots := by
  rw [exec_set_of_idle (phase_eq_idle_of_exec_eq_next h)] at h
  obtain ⟨t, ht, h⟩ := finishTsWait_eq_next.1 h
  obtain ⟨_, rfl⟩ := finishWrite_eq_next.1 h
  rw [toTimestamp_host, recvRequest_host] at ht
  refine ⟨t, ht, ?_⟩
  rw [sendStatus_slots, writeSlot_slots, takeTimestamp_tsreg]
  exact tableSet_slots_congr (by simp) var snd val t

end Sys2Proof.Machine

open Sys2Proof Sys2Proof.Machine

/-- Settles O20, by the two branches of the table write. -/
theorem tableWriteWritesOneSlot : Obligations.TableWriteWritesOneSlot := by
  intro v snd val t s
  refine ⟨fun hv => ?_, fun hv => tableSet_of_not_lt (Nat.not_lt.2 hv) snd val t s⟩
  rw [tableSet_of_lt hv]
  refine ⟨rfl, rfl, fun i => ?_⟩
  rw [Fin.getElem_fin, Fin.getElem_fin, Vector.getElem_set]
  exact if_congr eq_comm rfl rfl

/-- Settles O21: an id in range names one slot, which the second write overwrites whole; another id writes none. -/
theorem lastWriteWins : Obligations.LastWriteWins := by
  intro v a b a' b' t t' s
  by_cases hv : v.toNat < Config.nSlots
  · simp only [tableSet_of_lt hv, Vector.set_set]
  · simp only [tableSet_of_not_lt hv]

/-- Settles O40: on the table a SET is one table write (`exec_set_slots`), so the second SET is all that remains (O21),
and an id below 64 holds its record (O20). -/
theorem repeatedSetIsIdempotent : Obligations.RepeatedSetIsIdempotent := by
  intro s s1 s2 v n x a h1 h2
  obtain ⟨t1, ht1, hs1⟩ := exec_set_slots h1
  obtain ⟨t2, ht2, hs2⟩ := exec_set_slots h2
  constructor
  · intro ha
    obtain rfl : t2 = t1 := Option.some.inj (ht2.symm.trans (ha.trans ht1))
    calc s2.slots
        = (({ s1 with host := a } : State).tableSet v n x t2).2.slots := hs2
      _ = ((s.tableSet v n x t2).2.tableSet v n x t2).2.slots :=
        tableSet_slots_congr (s := { s1 with host := a }) hs1 v n x t2
      _ = (s.tableSet v n x t2).2.slots := by rw [lastWriteWins]
      _ = s1.slots := hs1.symm
  · intro hv t ht
    obtain rfl : t2 = t := Option.some.inj (ht2.symm.trans ht)
    obtain ⟨_, _, hslot⟩ := (tableWriteWritesOneSlot v n x t2 { s1 with host := a }).1 hv
    simp only [hs2]
    exact (hslot ⟨v.toNat, hv⟩).trans (if_pos rfl)

end

section
/-! The frame of a report: its checksum field (O16), reading it back (O17), its transfers (O18), and the frame that a
QUERY transfers. -/

namespace Sys2Proof.Machine

/-! ### The parts of a frame -/

/-- R163: the bytes in front of the payload are its checksum (R161), whatever `CK` is. -/
theorem frameChecksum_encodeReportWith (c : List Byte → Checksum) (t : Vector Slot Config.nSlots) :
    frameChecksum (encodeReportWith c t) = c (framePayload (encodeReportWith c t)) := by
  rw [framePayload_encodeReportWith]
  exact le32_bytesLE32 (c (payload t))

/-- R70: the byte at the offset of byte `j` of slot `i`'s record is that byte. -/
theorem encodeReportWith_recordOffset (c : List Byte → Checksum) (t : Vector Slot Config.nSlots)
    (i : Fin Config.nSlots) (j : Fin 4) :
    (encodeReportWith c t)[recordOffset i j] = (record t[i])[j] := by
  have hlt : 4 + 4 * i.val + j.val < (encodeReportWith c t).toList.length := by
    rw [Vector.length_toList]
    exact (recordOffset i j).isLt
  have h := encodeReportWith_getElem?_record c t i j.isLt
  rw [List.getElem?_eq_getElem hlt, List.getElem?_eq_getElem j.isLt] at h
  exact Option.some.inj h

/-- R167: reading slot `i` back inverts R160, whatever `CK` is. -/
theorem readBack_encodeReportWith (c : List Byte → Checksum) (t : Vector Slot Config.nSlots) (i : Fin Config.nSlots) :
    readBack (encodeReportWith c t) i = t[i] := by
  calc readBack (encodeReportWith c t) i
      = { ts := le16 (t[i].ts.extractLsb' 0 8) (t[i].ts.extractLsb' 8 8), snd := t[i].snd, val := t[i].val } := by
        simp only [readBack, encodeReportWith_recordOffset]
        rfl
    _ = t[i] := by rw [le16_bytesLE16]

/-- R167: the frame carries every bit of the table. -/
theorem encodeReportWith_injective (c : List Byte → Checksum) : Function.Injective (encodeReportWith c) := by
  intro t u h
  refine Vector.ext fun i hi => ?_
  calc t[i] = readBack (encodeReportWith c t) ⟨i, hi⟩ := (readBack_encodeReportWith c t ⟨i, hi⟩).symm
    _ = readBack (encodeReportWith c u) ⟨i, hi⟩ := by rw [h]
    _ = u[i] := readBack_encodeReportWith c u ⟨i, hi⟩

/-! ### The transfers of a frame -/

/-- R164, R215: transfer `k` of a whole frame is byte `k`. -/
theorem frameEvents_zero_getElem? (f : Vector Byte Config.rspLen) (k : Fin Config.rspLen) :
    (frameEvents f 0)[k.val]? = some (.rsp f[k] (isLast k.val)) := by
  simp [frameEvents]

/-! ### The frame of a QUERY -/

theorem encodeWord_query : encodeWord .query = queryWord := by decide

/-- R182, R191: a QUERY that completes has transferred the frame of its table, and RSPBUF still holds it (log entry
24). -/
theorem exec_query_frame {s s' : State} (h : exec .query s = .next s') :
    s'.rspbuf = encodeReport s.slots ∧
      s'.trace = s.trace ++ (.req queryWord :: frameEvents (encodeReport s.slots) 0 ++ [.sts 1]) := by
  rw [exec_query_of_idle (phase_eq_idle_of_exec_eq_next h), encodeWord_query] at h
  obtain ⟨_, _, rfl⟩ := finishSend_eq_next.1 h
  simp

end Sys2Proof.Machine

open Sys2Proof Sys2Proof.Machine

/-- Settles O16: a frame's checksum field and its payload are read off the encoder, and the frame of a QUERY is the
encoder's. -/
theorem framesAreSelfConsistent : Obligations.FramesAreSelfConsistent := by
  refine ⟨frameChecksum_encodeReportWith, fun s s' h => ?_⟩
  obtain ⟨hbuf, htrace⟩ := exec_query_frame h
  rw [hbuf]
  exact ⟨frameChecksum_encodeReportWith ck s.slots, htrace⟩

/-- Settles O17: reading back inverts the encoder slot by slot, so the encoder is injective. -/
theorem frameReadsBackTheTable : Obligations.FrameReadsBackTheTable :=
  ⟨readBack_encodeReportWith ck, fun _ _ => (encodeReportWith_injective ck).eq_iff⟩

/-- Settles O18: the transfers from offset 0 on are one for each byte of the frame, and `isLast` is `k = 259`. -/
theorem frameIsTransferredInOrder : Obligations.FrameIsTransferredInOrder := fun f =>
  ⟨frameEvents_length f 0, frameEvents_zero_getElem? f⟩

end

section
/-! SUPPORT. What each request comes to from IDLE, said once: the state that a completed request leaves, and the hang
of one whose host leaves a handshake unanswered. -/

namespace Sys2Proof.Machine

/-! ### The outcome of a request -/

/-- The transfers of the transaction of `i`, in order (R187, R191). The timestamp is the host's; no SET completes
without one. -/
def State.transfers (s : State) (i : Instr) : List Event :=
  .req (encodeWord i) :: match i with
    | .query => frameEvents (encodeReport s.slots) 0 ++ [.sts 1]
    | .set var _ _ => [.ts (s.host.ts.getD 0), .sts (if var.toNat < Config.nSlots then 1 else 0)]
    | .malformedBadChecksum _ _ _ _ => [.sts 0]
    | .malformedBadOpcode _ => [.sts 0]

/-- The table after the transaction of `i` (R182, R183, R185, R186). -/
def State.slotsAfter (s : State) (i : Instr) : Vector Slot Config.nSlots :=
  match i with
  | .set var snd val =>
    if h : var.toNat < Config.nSlots then
      s.slots.set var.toNat { ts := s.host.ts.getD 0, snd := snd, val := val } h
    else s.slots
  | _ => s.slots

/-- The state that the completed transaction of `i` leaves. -/
def State.completed (s : State) (i : Instr) : State :=
  let s' := { s with
    slots := s.slotsAfter i, req := encodeWord i, stsreg := Config.stsIdle, trace := s.trace ++ s.transfers i }
  match i with
  | .query => { s' with rspbuf := encodeReport s.slots, bytecnt := 259, ckAcc := payload s.slots }
  | .set var snd val => { s' with
      tsreg := s.host.ts.getD 0
      ckAcc := setPayload var snd val
      labels := if var.toNat < Config.nSlots then s.labels else s.labels ++ [.range] }
  | .malformedBadChecksum _ var snd val => { s' with
      ckAcc := setPayload var snd val, labels := s.labels ++ [.badChecksum] }
  | .malformedBadOpcode _ => { s' with labels := s.labels ++ [.badOpcode] }

/-- Where the transaction of `i` waits for ever when the host leaves one of its handshakes unanswered (R219). -/
def HostAnswers.hang (h : HostAnswers) : Instr → Fault
  | .query => if h.acceptsFrame then .hangStatus else .hangReportSend
  | .set _ _ _ => if h.ts.isSome then .hangStatus else .hangTsWait
  | .malformedBadChecksum _ _ _ _ => .hangStatus
  | .malformedBadOpcode _ => .hangStatus

section
variable (s : State) (i : Instr)

@[simp] theorem completed_slots : (s.completed i).slots = s.slotsAfter i := by cases i <;> rfl
@[simp] theorem completed_phase : (s.completed i).phase = s.phase := by cases i <;> rfl
@[simp] theorem completed_trace : (s.completed i).trace = s.trace ++ s.transfers i := by cases i <;> rfl
@[simp] theorem completed_host : (s.completed i).host = s.host := by cases i <;> rfl
@[simp] theorem completed_inbox : (s.completed i).inbox = s.inbox := by cases i <;> rfl

end

section
variable {s s' : State} {i : Instr}

theorem complete_set_iff {h : HostAnswers} {var snd val : Byte} :
    h.complete (.set var snd val) = true ↔ (∃ t, h.ts = some t) ∧ h.acceptsStatus = true := by
  simp [HostAnswers.complete, Option.isSome_iff_exists]

theorem finishStatus_of_not_accepted (h : s.host.acceptsStatus = false) : finishStatus s = .fault .hangStatus := by
  simp [finishStatus, h]

theorem finishSend_of_not_accepted (h : s.host.acceptsFrame = false) : finishSend s = .fault .hangReportSend := by
  simp [finishSend, h]

theorem finishSend_of_accepted (h : s.host.acceptsFrame = true) : finishSend s = finishStatus s.sendFrame := if_pos h

theorem finishTsWait_of_none (var snd val : Byte) (h : s.host.ts = none) :
    finishTsWait var snd val s = .fault .hangTsWait := by
  simp [finishTsWait, h]

/-- WRITE and the status transfer of a SET whose request and timestamp have been transferred. -/
theorem sendStatus_writeSlot_eq_completed (hidle : s.phase = .idle) {t : Timestamp} (ht : s.host.ts = some t)
    (var snd val : Byte) :
    ((((s.recvRequest (encodeWord (.set var snd val))).toTimestamp var snd val).takeTimestamp t).writeSlot
      var snd val).sendStatus = s.completed (.set var snd val) := by
  obtain ⟨h, hw⟩ | ⟨h, hw⟩ := writeSlot_cases var snd val
    (((s.recvRequest (encodeWord (.set var snd val))).toTimestamp var snd val).takeTimestamp t) <;> rw [hw] <;>
  simp [toTimestamp_eq, State.completed, State.slotsAfter, State.transfers, State.sendStatus,
    State.takeTimestamp, State.recvRequest, h, ht, hidle]

/-- A request whose host answers its handshakes completes (R188, R192). -/
theorem exec_of_complete (hidle : s.phase = .idle) (hc : s.host.complete i = true) :
    exec i s = .next (s.completed i) := by
  cases i with
  | query =>
    obtain ⟨hf, hs⟩ : s.host.acceptsFrame = true ∧ s.host.acceptsStatus = true := by
      simpa [HostAnswers.complete] using hc
    rw [exec_query_of_idle hidle]
    refine finishSend_eq_next.2 ⟨by simpa using hf, by simpa using hs, ?_⟩
    simp [buildReport_eq, State.completed, State.slotsAfter, State.transfers, State.sendStatus, State.sendFrame,
      State.toReport, State.recvRequest, hidle]
  | set var snd val =>
    obtain ⟨⟨t, ht⟩, hs⟩ := complete_set_iff.1 hc
    rw [exec_set_of_idle hidle]
    refine finishTsWait_eq_next.2 ⟨t, by simpa using ht, finishWrite_eq_next.2 ⟨by simpa using hs, ?_⟩⟩
    exact sendStatus_writeSlot_eq_completed hidle ht var snd val
  | malformedBadChecksum claimed var snd val =>
    rw [exec_malformedBadChecksum_of_idle hidle]
    refine finishStatus_eq_next.2 ⟨by simpa [HostAnswers.complete] using hc, ?_⟩
    simp [rejectChecksum_eq, State.completed, State.slotsAfter, State.transfers, State.sendStatus,
      State.recvRequest, hidle]
  | malformedBadOpcode w =>
    rw [exec_malformedBadOpcode_of_idle hidle]
    refine finishStatus_eq_next.2 ⟨by simpa [HostAnswers.complete] using hc, ?_⟩
    simp [State.rejectOpcode, State.reject, State.completed, State.slotsAfter, State.transfers, State.sendStatus,
      State.recvRequest, hidle]

/-- A request whose host leaves one of its handshakes unanswered has no step (R192, R219). -/
theorem exec_of_not_complete (hidle : s.phase = .idle) (hc : s.host.complete i = false) :
    exec i s = .fault (s.host.hang i) := by
  cases i with
  | query =>
    rw [exec_query_of_idle hidle, finishBuild]
    cases hf : s.host.acceptsFrame with
    | false => simpa [HostAnswers.hang, hf] using finishSend_of_not_accepted (by simpa using hf)
    | true =>
      have hs : s.host.acceptsStatus = false := by simpa [HostAnswers.complete, hf] using hc
      rw [finishSend_of_accepted (by simpa using hf)]
      simpa [HostAnswers.hang, hf] using finishStatus_of_not_accepted (by simpa using hs)
  | set var snd val =>
    rw [exec_set_of_idle hidle]
    cases ht : s.host.ts with
    | none => simpa [HostAnswers.hang, ht] using finishTsWait_of_none var snd val (by simpa using ht)
    | some t =>
      have hs : s.host.acceptsStatus = false := by simpa [HostAnswers.complete, ht] using hc
      rw [finishTsWait_of_some _ var snd val (by simpa using ht), finishWrite]
      simpa [HostAnswers.hang, ht] using finishStatus_of_not_accepted (by simpa using hs)
  | malformedBadChecksum claimed var snd val =>
    exact (exec_malformedBadChecksum_of_idle hidle ..).trans
      (finishStatus_of_not_accepted (by simpa [HostAnswers.complete] using hc))
  | malformedBadOpcode w =>
    exact (exec_malformedBadOpcode_of_idle hidle w).trans (finishStatus_of_not_accepted hc)

/-- Everything a request that answers a next state has done. -/
theorem exec_eq_next : exec i s = .next s' ↔
    s.phase = .idle ∧ s.host.complete i = true ∧ s.completed i = s' := by
  constructor
  · intro h
    have hidle := phase_eq_idle_of_exec_eq_next h
    cases hc : s.host.complete i with
    | true => exact ⟨hidle, rfl, Host.Outcome.next.inj ((exec_of_complete hidle hc).symm.trans h)⟩
    | false => rw [exec_of_not_complete hidle hc] at h; cases h
  · rintro ⟨hidle, hc, rfl⟩
    exact exec_of_complete hidle hc

end

end Sys2Proof.Machine
end

section
/-! The two machines agree (O52, O53); what each request does and leaves alone (O22 to O28); hangs (O32); the step
(O34); what a transaction depends on (O41). -/

namespace Sys2Proof.Machine

/-! ### The word of a request in format S -/

theorem bytesLE64_encodeWord (i : Instr) : bytesLE64 (encodeWord i) = encode i :=
  bytesLE64_le64_of_length (encodeWith_length ck i)

/-- R62, R63: the fields of a word whose bytes are in format S, whether or not its claimed checksum is right. -/
theorem reqFields_of_bytesLE64 {w : ReqWord} {k : Checksum} {var snd val : Byte}
    (h : bytesLE64 w = bytesLE32 k ++ setPayload var snd val) :
    reqClaimed w = k ∧ reqOpcode w = opSet ∧ reqVar w = var ∧ reqSender w = snd ∧ reqValue w = val := by
  rw [bytesLE64_eq_fields] at h
  obtain ⟨hk, hp⟩ := List.append_inj h rfl
  exact ⟨bytesLE32_injective hk, by simpa [setPayload] using hp⟩

theorem encodeWord_malformedBadOpcode (w : ReqWord) : encodeWord (.malformedBadOpcode w) = w := le64_bytesLE64 w

theorem wf_of_decode_eq_ok {p : List Byte} {i : Instr} (h : decode p = .ok i) : i.wf = true :=
  (encodeReversesDecode ck p i h).2

/-! ### The transfers of a frame by channel -/

theorem countP_isRsp_frameEvents (f : Vector Byte Config.rspLen) : (frameEvents f 0).countP Event.isRsp = 260 := by
  rw [List.countP_eq_length.2, frameEvents_length]
  intro e he
  obtain ⟨b, l, rfl⟩ := mem_frameEvents he
  rfl

/-- A frame is made of response transfers, so no predicate that these do not have counts any of it. -/
theorem countP_frameEvents_eq_zero {q : Event → Bool} (hq : ∀ b l, q (.rsp b l) = false)
    (f : Vector Byte Config.rspLen) : (frameEvents f 0).countP q = 0 := by
  rw [List.countP_eq_zero]
  intro e he
  obtain ⟨b, l, rfl⟩ := mem_frameEvents he
  simp [hq]

/-! ### What a transaction depends on (R189) -/

section
variable {s t : State} {i : Instr}

theorem complete_congr (hf : s.host.acceptsFrame = t.host.acceptsFrame)
    (ha : s.host.acceptsStatus = t.host.acceptsStatus) (hts : isSetInstr i = true → s.host.ts = t.host.ts) :
    s.host.complete i = t.host.complete i := by
  cases i with
  | set var snd val => simp [HostAnswers.complete, ha, hts rfl]
  | query => simp [HostAnswers.complete, hf, ha]
  | malformedBadChecksum claimed var snd val => exact ha
  | malformedBadOpcode w => exact ha

theorem transfers_congr (hs : s.slots = t.slots) (hts : isSetInstr i = true → s.host.ts = t.host.ts) :
    s.transfers i = t.transfers i := by
  cases i with
  | set var snd val => simp [State.transfers, hts rfl]
  | query => simp [State.transfers, hs]
  | malformedBadChecksum claimed var snd val => rfl
  | malformedBadOpcode w => rfl

theorem slotsAfter_congr (hs : s.slots = t.slots) (hts : isSetInstr i = true → s.host.ts = t.host.ts) :
    s.slotsAfter i = t.slotsAfter i := by
  cases i with
  | set var snd val => simp [State.slotsAfter, hs, hts rfl]
  | query => exact hs
  | malformedBadChecksum claimed var snd val => exact hs
  | malformedBadOpcode w => exact hs

theorem completed_labels_congr (h : s.labels = t.labels) (i : Instr) :
    (s.completed i).labels = (t.completed i).labels := by
  cases i <;> simp [State.completed, h]

theorem completed_sameButHidden (h : s.SameButHidden t) (i : Instr) :
    (s.completed i).SameButHidden (t.completed i) where
  slots := by simpa using slotsAfter_congr h.slots fun _ => congrArg _ h.host
  phase := by simpa using h.phase
  trace := by simp [h.trace, transfers_congr (i := i) h.slots fun _ => congrArg _ h.host]
  labels := completed_labels_congr h.labels i
  host := by simpa using h.host
  inbox := by simpa using h.inbox

theorem exec_agree (hidle : s.phase = .idle) (h : s.SameButHidden t) (i : Instr) : Agree (exec i s) (exec i t) := by
  have hidle' : t.phase = .idle := h.phase.symm.trans hidle
  cases hc : s.host.complete i with
  | true =>
    rw [exec_of_complete hidle hc, exec_of_complete hidle' (h.host ▸ hc)]
    exact completed_sameButHidden h i
  | false =>
    rw [exec_of_not_complete hidle hc, exec_of_not_complete hidle' (h.host ▸ hc)]
    exact congrArg (HostAnswers.hang · i) h.host

end

/-! ### The step -/

section
variable {s : State} {rest : List HostMove}

theorem step_of_reset (hi : s.inbox = .reset :: rest) :
    step s = .next ({ s with inbox := rest } : State).coreReset := by
  simp [step, fetch, hi]

variable (hidle : s.phase = .idle)
include hidle

theorem step_of_nothing_offered (hi : s.inbox = []) : step s = .next s := by
  simp [step, fetch, hi, hidle]

/-- A request offered in IDLE is run with the host's answers for it (R180, R213). -/
theorem step_of_request {p : List Byte} {a : HostAnswers} {i : Instr} (hi : s.inbox = .request p a :: rest)
    (hd : decode p = .ok i) : step s = exec i { s with inbox := rest, host := a } := by
  simp [step, fetch, hi, hidle, hd]

theorem step_of_bad_length {p : List Byte} {a : HostAnswers} {c : Cause} (hi : s.inbox = .request p a :: rest)
    (hd : decode p = .error c) : step s = .refused .framing := by
  simp [step, fetch, hi, hidle, hd]

end

/-- The step of an idle state depends on nothing that the hidden registers hold. -/
theorem step_agree {s t : State} (hidle : s.phase = .idle) (h : s.SameButHidden t) : Agree (step s) (step t) := by
  have hidle' : t.phase = .idle := h.phase.symm.trans hidle
  match hi : s.inbox, hi' : t.inbox, h.inbox with
  | [], _, he =>
    rw [step_of_nothing_offered hidle hi, step_of_nothing_offered hidle' (he ▸ hi')]
    exact h
  | .reset :: rest, _, he =>
    rw [step_of_reset hi, step_of_reset (he ▸ hi')]
    exact ⟨rfl, rfl, h.trace, h.labels, h.host, rfl⟩
  | .request p a :: rest, _, he =>
    cases hd : decode p with
    | ok i =>
      rw [step_of_request hidle hi hd, step_of_request hidle' (he ▸ hi') hd]
      exact exec_agree (s := { s with inbox := rest, host := a }) (t := { t with inbox := rest, host := a }) hidle
        ⟨h.slots, h.phase, h.trace, h.labels, rfl, rfl⟩ i
    | error c =>
      rw [step_of_bad_length hidle hi hd, step_of_bad_length hidle' (he ▸ hi') hd]
      rfl

end Sys2Proof.Machine

open Sys2Proof Sys2Proof.Machine

/-- Settles O52: DECODE of the word of a well-formed request finds that request. -/
theorem transactionFollowsThePhases : Obligations.TransactionFollowsThePhases := fun _ _ hwf hidle =>
  exec_eq_resume_recvRequest hwf hidle

/-- Settles O53, phase by phase (`edge_keepsOutcome`). -/
theorem everyEdgeKeepsTheOutcome : Obligations.EveryEdgeKeepsTheOutcome := fun _ _ hbusy he =>
  edge_keepsOutcome hbusy he

/-- Settles O34: the fetch answers the decoded request. -/
theorem stepRunsTheDecodedRequest : Obligations.StepRunsTheDecodedRequest := fun _ _ _ _ _ hidle hi hd =>
  step_of_request hidle hi hd

/-- Settles O22 from the state a completed QUERY leaves. -/
theorem queryReportsTheTable : Obligations.QueryReportsTheTable := by
  refine ⟨encodeWord_query ▸ decodeWord_encodeWord (i := .query) rfl, fun s hidle hf hs => ?_⟩
  refine ⟨encodeWord .query, encodeReport s.slots, 259, Config.stsIdle, payload s.slots, ?_⟩
  rw [exec_of_complete hidle (by simp [HostAnswers.complete, hf, hs]), ← encodeWord_query]
  rfl

/-- Settles O23 from the state a completed SET leaves. -/
theorem setWritesItsSlotWhenInRange : Obligations.SetWritesItsSlotWhenInRange := by
  intro v snd val t s hidle ht hs
  obtain ⟨hk, hop, hv, hn, hx⟩ := reqFields_of_bytesLE64 (bytesLE64_encodeWord (.set v snd val))
  refine ⟨encodeWord (.set v snd val), encodeWord (.set v snd val), t, Config.stsIdle, setPayload v snd val,
    (s.completed (.set v snd val)).labels, hk, hop, hv, hn, hx, decodeWord_encodeWord rfl, ?_⟩
  rw [exec_of_complete hidle (by simp [HostAnswers.complete, ht, hs])]
  simp [State.completed, State.slotsAfter, State.transfers, ht]

/-- Settles O24: the word is its own encoding. -/
theorem badOpcodeAnswersStatusZero : Obligations.BadOpcodeAnswersStatusZero := by
  refine ⟨fun w hq hop => decodeWordWith_badOpcode ck hq hop, fun w s hidle hs => ?_⟩
  refine ⟨w, Config.stsIdle, s.ckAcc, s.labels ++ [.badOpcode], ?_⟩
  rw [exec_of_complete (i := .malformedBadOpcode w) hidle hs]
  simp [State.completed, State.slotsAfter, State.transfers, encodeWord_malformedBadOpcode]

/-- Settles O25: the word's fields are the request's, and the request is well formed if its checksum is wrong. -/
theorem badChecksumAnswersStatusZero : Obligations.BadChecksumAnswersStatusZero := by
  intro k v snd val s hidle hs
  obtain ⟨hk, hop, hv, hn, hx⟩ := reqFields_of_bytesLE64 (bytesLE64_encodeWord (.malformedBadChecksum k v snd val))
  refine ⟨encodeWord (.malformedBadChecksum k v snd val), encodeWord (.malformedBadChecksum k v snd val), Config.stsIdle,
    setPayload v snd val, s.labels ++ [.badChecksum], hk, hop, hv, hn, hx, fun hne => decodeWord_encodeWord (bne_iff_ne.2 hne), ?_⟩
  exact exec_of_complete hidle hs

/-- Settles O26 from the state a completed request leaves. -/
theorem requestsLeaveTheRestAlone : Obligations.RequestsLeaveTheRestAlone := by
  intro i s s' h
  obtain ⟨hidle, _, rfl⟩ := exec_eq_next.1 h
  refine ⟨by simpa using hidle, completed_host s i, completed_inbox s i, by simp, ?_, ?_⟩
  · cases i with
    | set var snd val => simp only [State.completed]; split <;> simp
    | _ => simp [State.completed]
  · cases i with
    | set var snd val =>
      refine ⟨by simp [State.completed], by simp [State.completed], fun hv => if_pos hv, fun j hj => ?_⟩
      rw [completed_slots, State.slotsAfter]
      split
      · exact Vector.getElem_set_ne _ j.isLt hj.symm
      · rfl
    | _ => simp [State.completed, State.slotsAfter]

/-- Settles O27 by counting `State.transfers`: a frame is 260 response transfers and nothing else. -/
theorem transferCounts : Obligations.TransferCounts := by
  intro i s hidle hc
  refine ⟨s.completed i, s.transfers i, exec_of_complete hidle hc, completed_trace s i, ?_⟩
  cases i with
  | query =>
    simp [State.transfers, isSetInstr, List.countP_cons, countP_isRsp_frameEvents,
      countP_frameEvents_eq_zero isReq_rsp, countP_frameEvents_eq_zero isSts_rsp, countP_frameEvents_eq_zero isTs_rsp]
  | _ => simp [State.transfers, isSetInstr, List.countP_cons]

/-- Settles O28: the added transfers are `State.transfers`. -/
theorem transferOrder : Obligations.TransferOrder := by
  intro i s s' h
  obtain ⟨_, hc, rfl⟩ := exec_eq_next.1 h
  cases i with
  | set var snd val =>
    obtain ⟨⟨t, ht⟩, _⟩ := complete_set_iff.1 hc
    exact ⟨t, ht, by simp [State.transfers, ht]⟩
  | _ => simp [State.transfers]

/-- Settles O32: each clause names a handshake that the request needs. -/
theorem unansweredHandshakesHang : Obligations.UnansweredHandshakesHang := by
  intro s hidle
  refine ⟨fun hf => ?_, fun hf ha => ?_, fun v n x ht => ?_, fun v n x t ht ha => ?_,
    fun k v n x ha => exec_of_not_complete (i := .malformedBadChecksum k v n x) hidle ha,
    fun w ha => exec_of_not_complete (i := .malformedBadOpcode w) hidle ha⟩
  · rw [exec_of_not_complete hidle (by simp [HostAnswers.complete, hf])]
    simp [HostAnswers.hang, hf]
  · rw [exec_of_not_complete hidle (by simp [HostAnswers.complete, ha])]
    simp [HostAnswers.hang, hf]
  · rw [exec_of_not_complete hidle (by simp [HostAnswers.complete, ht])]
    simp [HostAnswers.hang, ht]
  · rw [exec_of_not_complete hidle (by simp [HostAnswers.complete, ha])]
    simp [HostAnswers.hang, ht]

/-- Settles O41: completion, transfers and table are functions of SLOT, the host's duties and, for a SET, its
timestamp; and the step's outcome one of what `SameButHidden` names. -/
theorem onlySlotsCarryOver : Obligations.OnlySlotsCarryOver := by
  constructor
  · intro i s t hs ht hslots hf ha hts s' h
    obtain ⟨_, hc, rfl⟩ := exec_eq_next.1 h
    refine ⟨t.completed i, s.transfers i, exec_of_complete ht (complete_congr hf ha hts ▸ hc), ?_,
      completed_trace s i, ?_⟩
    · rw [completed_slots, completed_slots, slotsAfter_congr hslots hts]
    · rw [completed_trace, transfers_congr hslots hts]
  · exact fun s t => step_agree
end

section
/-! The invariant (O44 to O46), first of every operation, then of the rest of a transaction; the phase table (O47). -/

namespace Sys2Proof.Machine

/-- R187 on the record of transfers. -/
def State.TraceLegal (s : State) : Prop := ∀ e ∈ s.trace, e.statusLegal = true

section
variable {s s' : State}

/-- One more transfer, whose status byte, if it is one, is 0 or 1. -/
theorem traceLegal_append {ev : Event} (h : s.Inv) (ht : s'.trace = s.trace ++ [ev]) (he : ev.statusLegal = true) :
    s'.TraceLegal := by
  rw [State.TraceLegal, ht]
  exact List.forall_mem_append.2 ⟨h.trace_status, List.forall_mem_singleton.2 he⟩

/-! ### What the invariant comes to in each phase -/

theorem inv_of_idle_or_decode (hp : s.phase = .idle ∨ s.phase = .decode) (ht : s.TraceLegal) : s.Inv := by
  obtain hp | hp := hp <;> exact ⟨ht, by simp [hp], by simp [hp], by simp [hp], by simp [hp]⟩

theorem inv_of_tsWait_or_write (hp : s.phase = .tsWait ∨ s.phase = .write) (ht : s.TraceLegal)
    (hd : isSetInstr (decodeWord s.req) = true) : s.Inv := by
  obtain hp | hp := hp <;> exact ⟨ht, fun _ => hd, by simp [hp], by simp [hp], by simp [hp]⟩

theorem inv_of_reportBuild (hp : s.phase = .reportBuild) (ht : s.TraceLegal) (hd : decodeWord s.req = .query) :
    s.Inv := ⟨ht, by simp [hp], fun _ => hd, by simp [hp], by simp [hp]⟩

theorem inv_of_reportSend (hp : s.phase = .reportSend) (ht : s.TraceLegal) (hd : decodeWord s.req = .query)
    (hf : s.rspbuf = encodeReport s.slots) : s.Inv := ⟨ht, by simp [hp], fun _ => hd, fun _ => hf, by simp [hp]⟩

theorem inv_of_status (hp : s.phase = .status) (ht : s.TraceLegal) (hs : isStatus s.stsreg = true) : s.Inv :=
  ⟨ht, by simp [hp], by simp [hp], by simp [hp], fun _ => hs⟩

/-! ### Every operation keeps it -/

theorem isStatus_statusByte (b : Bool) : isStatus (statusByte b) = true := by cases b <;> rfl

section
variable (h : s.Inv)
include h

theorem coreReset_inv : s.coreReset.Inv := inv_of_idle_or_decode (.inl rfl) h.trace_status

theorem recvRequest_inv (w : ReqWord) : (s.recvRequest w).Inv :=
  inv_of_idle_or_decode (.inr rfl) (traceLegal_append h rfl rfl)

theorem toReport_inv (hd : decodeWord s.req = .query) : s.toReport.Inv := inv_of_reportBuild rfl h.trace_status hd

theorem toTimestamp_inv {var snd val : Byte} (hd : decodeWord s.req = .set var snd val) :
    (s.toTimestamp var snd val).Inv := by
  rw [toTimestamp_eq]
  exact inv_of_tsWait_or_write (.inl rfl) h.trace_status (congrArg isSetInstr hd)

theorem reject_inv (c : Cause) : (s.reject c).Inv := inv_of_status rfl h.trace_status (isStatus_statusByte false)

theorem rejectChecksum_inv (var snd val : Byte) : (s.rejectChecksum var snd val).Inv := by
  rw [rejectChecksum_eq]
  exact inv_of_status rfl h.trace_status (isStatus_statusByte false)

theorem decodeDone_inv : s.decodeDone.Inv := by
  obtain ⟨hd, hn⟩ | ⟨_, _, _, hd, hn⟩ | ⟨_, var, snd, val, _, hn⟩ | ⟨_, _, hn⟩ := decodeDone_cases s <;> rw [hn]
  · exact toReport_inv h hd
  · exact toTimestamp_inv h hd
  · exact rejectChecksum_inv h var snd val
  · exact reject_inv h .badOpcode

theorem takeTimestamp_inv (hp : s.phase = .tsWait) (t : Timestamp) : (s.takeTimestamp t).Inv :=
  inv_of_tsWait_or_write (.inr rfl) (traceLegal_append h rfl rfl) (h.set_phases (.inl hp))

theorem writeSlot_inv (var snd val : Byte) : (s.writeSlot var snd val).Inv := by
  obtain ⟨_, hw⟩ | ⟨_, hw⟩ := writeSlot_cases var snd val s <;> rw [hw] <;>
  exact inv_of_status rfl h.trace_status rfl

theorem buildReport_inv (hp : s.phase = .reportBuild) : s.buildReport.Inv := by
  rw [buildReport_eq]
  exact inv_of_reportSend rfl h.trace_status (h.query_phases (.inl hp)) rfl

theorem sendFrame_inv : s.sendFrame.Inv := by
  refine inv_of_status rfl (List.forall_mem_append.2 ⟨h.trace_status, fun e he => ?_⟩) (isStatus_statusByte true)
  obtain ⟨b, l, rfl⟩ := mem_frameEvents he
  rfl

theorem sendByte_inv (hp : s.phase = .reportSend) : s.sendByte.Inv := by
  by_cases hlt : s.bytecnt.val + 1 < Config.rspLen
  · rw [sendByte_of_lt s hlt]
    exact inv_of_reportSend hp (traceLegal_append h rfl rfl) (h.query_phases (.inr hp)) (h.frame_built hp)
  · rw [sendByte_of_not_lt s hlt]
    exact sendFrame_inv h

theorem sendStatus_inv (hp : s.phase = .status) : s.sendStatus.Inv :=
  inv_of_idle_or_decode (.inl rfl) (traceLegal_append h rfl (h.status_legal hp))

/-! ### The rest of a transaction keeps it -/

theorem finishStatus_inv (hp : s.phase = .status) (hn : finishStatus s = .next s') : s'.Inv := by
  obtain ⟨_, rfl⟩ := finishStatus_eq_next.1 hn
  exact sendStatus_inv h hp

theorem finishSend_inv (hn : finishSend s = .next s') : s'.Inv := by
  obtain ⟨_, _, rfl⟩ := finishSend_eq_next.1 hn
  exact sendStatus_inv (sendFrame_inv h) rfl

theorem finishWrite_inv {var snd val : Byte} (hn : finishWrite var snd val s = .next s') : s'.Inv :=
  finishStatus_inv (writeSlot_inv h var snd val) (writeSlot_phase ..) hn

theorem finishTsWait_inv {var snd val : Byte} (hp : s.phase = .tsWait) (hn : finishTsWait var snd val s = .next s') :
    s'.Inv := by
  obtain ⟨t, _, hn⟩ := finishTsWait_eq_next.1 hn
  exact finishWrite_inv (takeTimestamp_inv h hp t) hn

theorem finishDecode_inv (hn : finishDecode s = .next s') : s'.Inv := by
  unfold finishDecode at hn
  split at hn
  next hd => exact finishSend_inv (buildReport_inv (toReport_inv h hd) rfl) hn
  next hd => exact finishTsWait_inv (toTimestamp_inv h hd) (toTimestamp_phase ..) hn
  next => exact finishStatus_inv (rejectChecksum_inv h ..) (rejectChecksum_phase ..) hn
  next => exact finishStatus_inv (reject_inv h _) rfl hn

theorem resume_inv (hn : resume s = .next s') : s'.Inv := by
  unfold resume at hn
  split at hn
  next => cases hn; exact h
  next => exact finishDecode_inv h hn
  next hp => exact finishTsWait_inv h hp hn
  next => exact finishWrite_inv h hn
  next hp => exact finishSend_inv (buildReport_inv h hp) hn
  next => exact finishSend_inv h hn
  next hp => exact finishStatus_inv h hp hn

end

theorem inv_ite {p : Prop} [Decidable p] (h : s.Inv) (h' : s'.Inv) : (if p then s' else s).Inv := by
  split
  · exact h'
  · exact h

/-- A well-formed request keeps it, as its transaction is the phase machine's from its request transfer on. -/
theorem exec_inv {i : Instr} (hwf : i.wf = true) (h : s.Inv) (hn : exec i s = .next s') : s'.Inv := by
  rw [exec_eq_resume_recvRequest hwf (phase_eq_idle_of_exec_eq_next hn)] at hn
  exact resume_inv (recvRequest_inv h _) hn

end

/-! ### The phase table -/

section
variable (s : State)

theorem decodeDone_trace : s.decodeDone.trace = s.trace := by
  obtain ⟨_, h⟩ | ⟨_, _, _, _, h⟩ | ⟨_, _, _, _, _, h⟩ | ⟨_, _, h⟩ := decodeDone_cases s <;> simp [h]

theorem writeSlot_stsreg_eq (var snd val : Byte) :
    (s.writeSlot var snd val).stsreg = if var.toNat < Config.nSlots then 1 else 0 := by
  obtain ⟨h, hw⟩ | ⟨h, hw⟩ := writeSlot_cases var snd val s <;> simp [hw, h]

theorem sendByte_trace :
    s.sendByte.trace = s.trace ++ [.rsp s.rspbuf[s.bytecnt] (isLast s.bytecnt)] := by
  unfold State.sendByte
  split <;> rfl

/-- REPORT_SEND before the last byte stays in REPORT_SEND at the next offset; after the last byte it is STATUS with
status 1 (R164). -/
theorem sendByte_phase_cases (hp : s.phase = .reportSend) :
    (s.bytecnt.val < 259 → s.sendByte.phase = .reportSend ∧ s.sendByte.bytecnt.val = s.bytecnt.val + 1) ∧
      (s.bytecnt.val = 259 → s.sendByte.phase = .status ∧ s.sendByte.stsreg = 1) := by
  constructor
  · intro hlt
    rw [sendByte_of_lt s (Nat.succ_lt_succ hlt)]
    exact ⟨hp, rfl⟩
  · intro hlast
    rw [sendByte_of_not_lt s (by rw [hlast]; decide)]
    exact ⟨rfl, rfl⟩

/-- DECODE, WRITE and REPORT_BUILD wait for nothing outside DPCORE (R190). -/
theorem edge_pins_of_working {e : Edge} {p : Pins} (hr : e.pins.rst = false) (hpr : p.rst = false)
    (hp : s.phase = .decode ∨ s.phase = .write ∨ s.phase = .reportBuild) :
    s.edge { e with pins := p } = s.edge e := by
  obtain hp | hp | hp := hp
  · rw [edge_of_decode hr hp, edge_of_decode (e := { e with pins := p }) hpr hp]
  · rw [edge_of_write hr hp, edge_of_write (e := { e with pins := p }) hpr hp]
  · rw [edge_of_reportBuild hr hp, edge_of_reportBuild (e := { e with pins := p }) hpr hp]

end

end Sys2Proof.Machine

open Sys2Proof Sys2Proof.Machine

/-- Settles O44: nothing has been transferred, and IDLE asks nothing of the registers. -/
theorem invariantAtReset : Obligations.InvariantAtReset :=
  inv_of_idle_or_decode (.inl rfl) fun _ he => absurd he List.not_mem_nil

/-- Settles O45, by what a step can be. -/
theorem invariantKeptByStep : Obligations.InvariantKeptByStep := by
  intro s s' hinv h
  obtain ⟨_, _, rfl⟩ | ⟨rest, _, rfl⟩ | ⟨_, _, h⟩ | ⟨p, a, rest, i, _, hidle, hd, h⟩ := step_cases h
  · exact hinv
  · exact inv_of_idle_or_decode (.inl rfl) hinv.trace_status
  · exact resume_inv hinv h
  · exact exec_inv (s := { s with inbox := rest, host := a }) (wf_of_decode_eq_ok hd)
      (inv_of_idle_or_decode (.inl hidle) hinv.trace_status) h

/-- Settles O46, phase by phase: an edge holds the phase or does its work. -/
theorem invariantKeptByEdge : Obligations.InvariantKeptByEdge := by
  intro s e h
  cases hr : e.pins.rst with
  | true =>
    rw [edge_of_rst hr]
    exact coreReset_inv h
  | false =>
    cases hp : s.phase with
    | idle => exact edge_of_idle hr hp ▸ inv_ite h (recvRequest_inv h _)
    | decode => exact edge_of_decode hr hp ▸ inv_ite h (decodeDone_inv h)
    | tsWait => exact edge_of_tsWait hr hp ▸ inv_ite h (takeTimestamp_inv h hp _)
    | write => exact edge_of_write hr hp ▸ inv_ite h (writeSlot_inv h ..)
    | reportBuild => exact edge_of_reportBuild hr hp ▸ inv_ite h (buildReport_inv h hp)
    | reportSend => exact edge_of_reportSend hr hp ▸ inv_ite h (sendByte_inv h hp)
    | status => exact edge_of_status hr hp ▸ inv_ite h (sendStatus_inv h hp)

/-- Settles O47, row by row from the equation of the edge in each phase. -/
theorem phaseTable : Obligations.PhaseTable := by
  intro s e hr
  refine ⟨fun hp => edge_of_idle hr hp, fun hp hd => ?_, fun hp hd => ?_, fun hp => edge_of_tsWait hr hp,
    fun hp hd => ?_, fun hp hd => ?_, fun hp hd => ?_, fun hp hd => ?_, fun hp hv => ?_, fun hp hv => ?_,
    fun hp => ⟨Config.stsIdle, edge_of_status hr hp⟩, fun hp p hpr => edge_pins_of_working s hr hpr hp, fun d => ?_⟩
  · rw [edge_of_decode hr hp, hd]; rfl
  · rw [edge_of_decode hr hp, if_pos hd]
    refine ⟨decodeDone_slots s, decodeDone_trace s, ?_⟩
    obtain ⟨hw, hn⟩ | ⟨_, _, _, hw, hn⟩ | ⟨_, _, _, _, hw, hn⟩ | ⟨_, hw, hn⟩ := decodeDone_cases s <;>
    simp [hw, hn]
  · rw [edge_of_write hr hp, hd]; rfl
  · rw [edge_of_write hr hp, if_pos hd]
    exact ⟨writeSlot_phase .., writeSlot_stsreg_eq .., writeSlot_slots ..⟩
  · rw [edge_of_reportBuild hr hp, hd]; rfl
  · rw [edge_of_reportBuild hr hp, if_pos hd]
    exact ⟨buildReport_phase s, buildReport_rspbuf s, congrArg Fin.val (buildReport_bytecnt s)⟩
  · rw [edge_of_reportSend hr hp, hv]; rfl
  · rw [edge_of_reportSend hr hp, if_pos hv]
    exact ⟨sendByte_trace s, sendByte_phase_cases s hp⟩
  · exact ⟨fun hp => beq_iff_eq.2 hp, fun hp => beq_iff_eq.2 hp,
      fun hp => ⟨beq_iff_eq.2 hp, if_pos hp, if_pos hp⟩, fun hp => ⟨beq_iff_eq.2 hp, if_pos hp⟩⟩

end

section
/-! The ports: the boundary's refusals (O31), offers held (O48), requests ignored while busy (O49), waits without a time
limit (O50). -/

namespace Sys2Proof.Machine

section
variable {s s' : State} {e : Edge}

/-! ### An unanswered handshake holds the state -/

theorem edge_of_ts_unanswered (hp : s.phase = .tsWait) (hr : e.pins.rst = false) (hv : e.pins.tsValid = false) :
    s.edge e = s := by
  rw [edge_of_tsWait hr hp, hv]; rfl

theorem edge_of_rsp_unanswered (hp : s.phase = .reportSend) (hr : e.pins.rst = false)
    (hv : e.pins.rspReady = false) : s.edge e = s := by
  rw [edge_of_reportSend hr hp, hv]; rfl

theorem edge_of_sts_unanswered (hp : s.phase = .status) (hr : e.pins.rst = false) (hv : e.pins.stsReady = false) :
    s.edge e = s := by
  rw [edge_of_status hr hp, hv]; rfl

/-- A state that each edge of a list leaves as it is stays as it is through all of them (R217). -/
theorem edges_eq_self {es : List Edge} (h : ∀ e ∈ es, s.edge e = s) : s.edges es = s := by
  induction es with
  | nil => rfl
  | cons e es ih =>
    obtain ⟨he, hes⟩ := List.forall_mem_cons.1 h
    calc s.edges (e :: es) = (s.edge e).edges es := rfl
      _ = s.edges es := by rw [he]
      _ = s := ih hes

/-! ### What an edge takes from the request and the timestamp port -/

/-- From `s` to `s'` no request is taken: REQ and the number of request transfers are the same. -/
def TakesNoRequest (s s' : State) : Prop :=
  s'.req = s.req ∧ s'.trace.countP Event.isReq = s.trace.countP Event.isReq

theorem takesNoRequest_of_trace_eq (hq : s'.req = s.req) (ht : s'.trace = s.trace) : TakesNoRequest s s' :=
  ⟨hq, by rw [ht]⟩

theorem takesNoRequest_of_trace_append {ev : Event} (hq : s'.req = s.req) (ht : s'.trace = s.trace ++ [ev])
    (hev : ev.isReq = false) : TakesNoRequest s s' :=
  ⟨hq, by simp [ht, hev]⟩

theorem takesNoRequest_ite {p : Prop} [Decidable p] (h : TakesNoRequest s s') :
    TakesNoRequest s (if p then s' else s) := by
  split
  · exact h
  · exact ⟨rfl, rfl⟩

theorem decodeDone_req (s : State) : s.decodeDone.req = s.req := by
  obtain ⟨_, h⟩ | ⟨_, _, _, _, h⟩ | ⟨_, _, _, _, _, h⟩ | ⟨_, _, h⟩ := decodeDone_cases s <;> simp [h]

theorem writeSlot_takesNoRequest (var snd val : Byte) (s : State) : TakesNoRequest s (s.writeSlot var snd val) := by
  obtain ⟨_, h⟩ | ⟨_, h⟩ := writeSlot_cases var snd val s <;> rw [h] <;> exact ⟨rfl, rfl⟩

theorem sendByte_req (s : State) : s.sendByte.req = s.req := by
  by_cases h : s.bytecnt.val + 1 < Config.rspLen
  · rw [sendByte_of_lt s h]
  · rw [sendByte_of_not_lt s h, sendFrame_req]

/-- Only IDLE takes a request (R213): every other phase transfers on another port or on none. -/
theorem edge_takesNoRequest (hb : s.phase ≠ .idle) (hr : e.pins.rst = false) : TakesNoRequest s (s.edge e) := by
  cases hp : s.phase with
  | idle => exact absurd hp hb
  | decode =>
    exact edge_of_decode hr hp ▸ takesNoRequest_ite (takesNoRequest_of_trace_eq (decodeDone_req s) (decodeDone_trace s))
  | tsWait => exact edge_of_tsWait hr hp ▸ takesNoRequest_ite (takesNoRequest_of_trace_append rfl rfl rfl)
  | write => exact edge_of_write hr hp ▸ takesNoRequest_ite (writeSlot_takesNoRequest ..)
  | reportBuild =>
    exact edge_of_reportBuild hr hp ▸
      takesNoRequest_ite (takesNoRequest_of_trace_eq (buildReport_req s) (buildReport_trace s))
  | reportSend =>
    exact edge_of_reportSend hr hp ▸
      takesNoRequest_ite (takesNoRequest_of_trace_append (sendByte_req s) (sendByte_trace s) rfl)
  | status => exact edge_of_status hr hp ▸ takesNoRequest_ite (takesNoRequest_of_trace_append rfl rfl rfl)

/-- Only TS_WAIT reads the timestamp port (R214). -/
theorem edge_ts_of_ne_tsWait (hp : s.phase ≠ .tsWait) (v : Bool) (d : Timestamp) :
    s.edge { e with pins := { e.pins with tsValid := v, tsData := d } } = s.edge e := by
  unfold State.edge
  cases h : s.phase with
  | tsWait => exact absurd h hp
  | _ => rfl

/-! ### The outputs of an offer, whatever the idle data -/

section
variable (d d' : IdleData)

theorem outputs_rsp_eq (hp : s.phase = .reportSend) :
    (s.outputs d').rspData = (s.outputs d).rspData ∧ (s.outputs d').rspLast = (s.outputs d).rspLast := by
  simp [State.outputs, hp]

theorem outputs_stsData_eq (hp : s.phase = .status) : (s.outputs d').stsData = (s.outputs d).stsData := by
  simp [State.outputs, hp]

end

end

end Sys2Proof.Machine

open Sys2Proof Sys2Proof.Machine

/-- Settles O49: only IDLE takes a request, and only TS_WAIT reads the timestamp port. -/
theorem busyIgnoresOffers : Obligations.BusyIgnoresOffers :=
  ⟨fun _ _ hb hr => edge_takesNoRequest hb hr, fun _ _ v d hp => edge_ts_of_ne_tsWait hp v d⟩

/-- Settles O50: each unanswered edge leaves the state as it is, and so do all of them. -/
theorem waitsHaveNoTimeLimit : Obligations.WaitsHaveNoTimeLimit := fun _ _ hr =>
  ⟨fun hp hv => edges_eq_self fun e he => edge_of_ts_unanswered hp (hr e he) (hv e he),
    fun hp hv => edges_eq_self fun e he => edge_of_rsp_unanswered hp (hr e he) (hv e he),
    fun hp hv => edges_eq_self fun e he => edge_of_sts_unanswered hp (hr e he) (hv e he)⟩

/-- Settles O31: a request runs from IDLE alone, a word decodes as its eight bytes do, and any other length decodes to
an error. -/
theorem boundaryRefusals : Obligations.BoundaryRefusals :=
  ⟨fun _ _ hb => ⟨exec_of_busy hb, fun _ => beq_eq_false_iff_ne.2 hb⟩, fun _ => rfl,
    fun _ _ _ _ hidle hi hlen => step_of_bad_length hidle hi (decodeWith_of_length_ne ck hlen)⟩

/-- Settles O48: an offer says which phase it is, and that phase's unanswered edge leaves the state as it is. -/
theorem offersAreHeld : Obligations.OffersAreHeld := by
  intro d d' s e hr
  constructor
  · intro hoffer hv
    have hp : s.phase = .reportSend := beq_iff_eq.1 hoffer
    rw [edge_of_rsp_unanswered hp hr hv]
    exact ⟨hoffer, outputs_rsp_eq d d' hp⟩
  · intro hoffer hv
    have hp : s.phase = .status := beq_iff_eq.1 hoffer
    rw [edge_of_sts_unanswered hp hr hv]
    exact ⟨hoffer, outputs_stsData_eq d d' hp⟩

end

section
/-! What erroneous requests come to (O9, O29, O30), the step on every host move (O33, O35), and the bound on a
transaction that nothing holds up (O51). -/

namespace Sys2Proof.Machine

section
variable {s : State}

/-! ### The step -/

/-- A host that answers every handshake completes every request (R219, R244). -/
theorem complete_of_answering (t : Timestamp) (i : Instr) :
    ({ ts := some t, acceptsFrame := true, acceptsStatus := true } : HostAnswers).complete i = true := by
  cases i <;> rfl

/-- A transaction in progress goes on unless the host resets (R213, R261). -/
theorem step_of_busy (hb : s.phase ≠ .idle) (hi : ∀ rest, s.inbox ≠ .reset :: rest) : step s = resume s := by
  obtain ⟨_, hp, _⟩ | ⟨rest, hr, _⟩ | ⟨_, _, hf⟩ | ⟨_, _, _, _, hp, _⟩ := fetch_cases s
  · exact absurd hp hb
  · exact absurd hr (hi rest)
  · simp [step, hf]
  · exact absurd hp hb

/-! ### The edges a transaction takes when nothing holds it up -/

theorem eager_iff {e : Edge} :
    e.eager = true ↔ e.pins.rst = false ∧ e.pins.tsValid = true ∧ e.pins.rspReady = true ∧
      e.pins.stsReady = true ∧ e.done = true := by
  simp [Edge.eager, and_assoc]

/-- The number of eager edges to the end of the transaction in progress, from the phases of R190; in DECODE, where it
depends on the request, that of a QUERY, the longest. -/
def State.edgesLeft (s : State) : Nat :=
  match s.phase with
  | .idle => 0
  | .decode => 263
  | .tsWait => 3
  | .write => 2
  | .reportBuild => 262
  | .reportSend => 261 - s.bytecnt.val
  | .status => 1

theorem edgesLeft_of_status (hp : s.phase = .status) : s.edgesLeft = 1 := by simp [State.edgesLeft, hp]

theorem edgesLeft_of_reportSend (hp : s.phase = .reportSend) : s.edgesLeft = 261 - s.bytecnt.val := by
  simp [State.edgesLeft, hp]

theorem edgesLeft_le (s : State) : s.edgesLeft ≤ 263 := by
  unfold State.edgesLeft
  split <;> omega

theorem edgesLeft_pos (hb : s.phase ≠ .idle) : 0 < s.edgesLeft := by
  cases hp : s.phase with
  | idle => exact absurd hp hb
  | reportSend =>
    have hk : s.bytecnt.val < 260 := s.bytecnt.isLt
    rw [edgesLeft_of_reportSend hp]
    omega
  | _ => simp [State.edgesLeft, hp]

theorem edgesLeft_decodeDone_lt (s : State) : s.decodeDone.edgesLeft < 263 := by
  obtain ⟨_, h⟩ | ⟨_, _, _, _, h⟩ | ⟨_, _, _, _, _, h⟩ | ⟨_, _, h⟩ := decodeDone_cases s <;>
  simp [h, State.edgesLeft]

/-- A response transfer leaves one byte less to send, and the last one only the status (R164). -/
theorem edgesLeft_sendByte_lt (hp : s.phase = .reportSend) : s.sendByte.edgesLeft < s.edgesLeft := by
  obtain ⟨hmore, hlast⟩ := sendByte_phase_cases s hp
  have hk : s.bytecnt.val < 260 := s.bytecnt.isLt
  rw [edgesLeft_of_reportSend hp]
  by_cases hlt : s.bytecnt.val < 259
  · obtain ⟨hp', hk'⟩ := hmore hlt
    rw [edgesLeft_of_reportSend hp', hk']
    omega
  · obtain ⟨hp', _⟩ := hlast (by omega)
    rw [edgesLeft_of_status hp']
    omega

/-- Every eager edge of a transaction brings its end nearer. -/
theorem edgesLeft_edge_lt {e : Edge} (hb : s.phase ≠ .idle) (he : e.eager = true) :
    (s.edge e).edgesLeft < s.edgesLeft := by
  obtain ⟨hr, hts, hrsp, hsts, hd⟩ := eager_iff.1 he
  cases hp : s.phase with
  | idle => exact absurd hp hb
  | decode => simpa [edge_of_decode hr hp, hd, State.edgesLeft, hp] using edgesLeft_decodeDone_lt s
  | tsWait => simp [edge_of_tsWait hr hp, hts, State.edgesLeft, hp]
  | write => simp [edge_of_write hr hp, hd, State.edgesLeft, hp]
  | reportBuild => simp [edge_of_reportBuild hr hp, hd, State.edgesLeft, hp]
  | reportSend =>
    rw [edge_of_reportSend hr hp, if_pos hrsp]
    exact edgesLeft_sendByte_lt hp
  | status => simp [edge_of_status hr hp, hsts, State.edgesLeft, hp]

/-- As many eager edges as are left end the transaction. -/
theorem runTransaction_isSome_of_edgesLeft_le {es : List Edge} (hb : s.phase ≠ .idle)
    (he : ∀ e ∈ es, e.eager = true) (hlen : s.edgesLeft ≤ es.length) : (State.runTransaction es s).isSome = true := by
  induction es generalizing s with
  | nil => exact absurd (edgesLeft_pos hb) hlen.not_gt
  | cons e es ih =>
    obtain ⟨he, hes⟩ := List.forall_mem_cons.1 he
    rw [State.runTransaction]
    split
    case isTrue => rfl
    case isFalse hbusy =>
      exact ih hbusy hes (Nat.le_of_lt_succ ((edgesLeft_edge_lt hb he).trans_le hlen))

end

end Sys2Proof.Machine

open Sys2Proof Sys2Proof.Machine

/-- Settles O33: 8 bytes decode to some request, and this host completes it. -/
theorem noRequestIsFatal : Obligations.NoRequestIsFatal := by
  intro s p t rest hidle hlen hi
  have hd : decode p = .ok (decodeWord (le64 p)) := decodeWith_of_length ck hlen
  rw [step_of_request hidle hi hd]
  exact ⟨_, exec_of_complete hidle (complete_of_answering t _), by simpa using hidle, by simp⟩

/-- Settles O51: no phase is more than 263 eager edges from the end. -/
theorem eagerTransactionsEnd : Obligations.EagerTransactionsEnd := fun s _ hb he hlen =>
  runTransaction_isSome_of_edgesLeft_le hb he ((edgesLeft_le s).trans hlen)

/-- Settles O9: the opcode is looked at before the checksum, and the checksum before the id. -/
theorem firstFailingCheckDecides : Obligations.FirstFailingCheckDecides := by
  intro c w hq hck
  refine ⟨decodeWordWith_badOpcode c hq, fun hop _ => ?_⟩
  have hd := (decodeWordWith_opSet c hop).trans (if_pos hck)
  refine ⟨hd, fun s s' h => ?_⟩
  obtain ⟨_, _, rfl⟩ := exec_eq_next.1 (hd ▸ h)
  simp [State.transfers]

/-- Settles O29 by `State.transfers` of the three requests. -/
theorem rejectionsLookAlike : Obligations.RejectionsLookAlike := by
  intro w k u v n x t s hv hidle ht hs
  have hv' : ¬ v.toNat < Config.nSlots := not_lt.2 hv
  refine ⟨_, _, _, _, _, _,
    exec_of_complete (i := .malformedBadOpcode w) hidle hs, completed_trace s _,
    exec_of_complete (i := .malformedBadChecksum k u n x) hidle hs, completed_trace s _,
    exec_of_complete (i := .set v n x) hidle (complete_set_iff.2 ⟨⟨t, ht⟩, hs⟩), completed_trace s _, ?_⟩
  simp [State.transfers, List.filter_cons, ht, hv']

/-- Settles O30 from the state a completed request leaves. -/
theorem rejectionsAreLabelled : Obligations.RejectionsAreLabelled := by
  intro i s s' h
  obtain ⟨_, _, rfl⟩ := exec_eq_next.1 h
  cases i with
  | set var snd val => by_cases hv : var.toNat < 64 <;> simp [State.completed, hv]
  | query => exact (List.append_nil _).symm
  | malformedBadChecksum claimed var snd val => rfl
  | malformedBadOpcode w => rfl

/-- Settles O35 by what the step does on each move. -/
theorem otherSteps : Obligations.OtherSteps :=
  ⟨fun _ => step_of_nothing_offered, fun _ => step_of_busy, fun _ _ => step_of_reset⟩

end

section
/-! A request's word and its bytes (O4), the checksum of zeros (O10), what a completed request leaves in the hidden
registers (O55), and the table that a later QUERY reports (O38, O39). -/

namespace Sys2Proof.Machine

/-! ### The word view of eight bytes (R63) -/

theorem getElem_of_bytesLE64_eq {p : List Byte} {w : ReqWord} (h : bytesLE64 w = p) (k : Fin 8)
    (hk : k.val < p.length) : p[k.val] = w.extractLsb' (8 * k.val) 8 := by
  subst h
  fin_cases k <;> rfl

/-- The fields of format S are the bytes that R62 names. -/
theorem reqFields_of_bytesLE64_eq {w : ReqWord} {p0 p1 p2 p3 p4 p5 p6 p7 : Byte}
    (h : bytesLE64 w = [p0, p1, p2, p3, p4, p5, p6, p7]) :
    reqClaimed w = le32 p0 p1 p2 p3 ∧ reqOpcode w = p4 ∧ reqVar w = p5 ∧ reqSender w = p6 ∧ reqValue w = p7 := by
  have hfields : [p0, p1, p2, p3, p4, p5, p6, p7] = bytesLE32 (le32 p0 p1 p2 p3) ++ [p4, p5, p6, p7] := by
    rw [bytesLE32_le32]
    rfl
  rw [bytesLE64_eq_fields, hfields] at h
  obtain ⟨hclaimed, hrest⟩ := List.append_inj h rfl
  exact ⟨bytesLE32_injective hclaimed, by simpa using hrest⟩

/-- The opcode table's numbering of a request's bits is that of its word. -/
theorem decodeTableWord_toNat (w : ReqWord) : decodeTableWord 64 w.toNat = some (decodeWord w) := by
  have hdecode : decode (bytesLE64 w) = .ok (decodeWord (le64 (bytesLE64 w))) := decodeWith_of_length ck rfl
  rw [decodeTableWord, Nat.mod_eq_of_lt w.isLt, BitVec.ofNat_toNat, BitVec.setWidth_eq, hdecode, le64_bytesLE64]
  rfl

/-! ### Zeros (R104) -/

/-- The machine's `CK` has the property CK_ZERO (log entry 2). -/
theorem ckZero_ck : CkZero ck := fun n => if_pos (by simp [zeros])

theorem ck_zeros (n : Nat) : ck (zeros n) = BitVec.ofNat 32 (n % 65521 * 65536 + 1) := by
  rw [ckZero_ck, adler32_eq_ofNat, adlerSums_zeros]

theorem payload_reset_slots : payload State.reset.slots = zeros 256 := by
  calc payload State.reset.slots
      = (List.replicate 64 (List.replicate 4 (0 : Byte))).flatten := rfl
    _ = zeros 256 := List.flatten_replicate_replicate

theorem encodeReport_toList (t : Vector Slot Config.nSlots) :
    (encodeReport t).toList = bytesLE32 (ck (payload t)) ++ payload t := rfl

/-! ### The hidden registers after a request (log entries 20 and 24) -/

@[simp] theorem completed_req (s : State) (i : Instr) : (s.completed i).req = encodeWord i := by cases i <;> rfl

/-! ### The table over several requests (R22, R41) -/

section
variable {s s' : State} {i : Instr}

theorem slotsAfter_of_not_writesSlot (h : writesSlot i = false) : s.slotsAfter i = s.slots := by
  cases i with
  | set var snd val =>
    have hout : ¬ var.toNat < Config.nSlots := fun hv => by simp [writesSlot, slotIndex_of_lt hv] at h
    exact dif_neg hout
  | query | malformedBadChecksum | malformedBadOpcode => rfl

/-- Requests none of which is an accepted SET leave the table as it was. -/
theorem runRequests_slots {is : List Instr} (hw : ∀ i ∈ is, writesSlot i = false)
    (h : runRequests is s = .next s') : s'.slots = s.slots := by
  induction is generalizing s with
  | nil => cases h; rfl
  | cons i is ih =>
    obtain ⟨hi, his⟩ := List.forall_mem_cons.1 hw
    rw [runRequests] at h
    split at h
    case h_1 _ hexec =>
      obtain ⟨_, _, rfl⟩ := exec_eq_next.1 hexec
      rw [ih his h, completed_slots, slotsAfter_of_not_writesSlot hi]
    case h_2 | h_3 => cases h

/-- A QUERY's transfers after those made before it, as `State.transfers` orders them. -/
theorem drop_trace_of_exec_query (h : exec .query s = .next s') :
    s'.trace.drop s.trace.length = .req queryWord :: frameEvents (encodeReport s.slots) 0 ++ [.sts 1] := by
  rw [(exec_query_frame h).2, List.drop_left]

end

end Sys2Proof.Machine

open Sys2Proof Sys2Proof.Machine

/-- Settles O4: eight bytes are the bytes of their own word (`bytesLE64_le64`), and the decoders read these. -/
theorem wordViewAgreesWithBytes : Obligations.WordViewAgreesWithBytes := by
  intro p0 p1 p2 p3 p4 p5 p6 p7 p w
  have hbytes : bytesLE64 w = p := bytesLE64_le64 p0 p1 p2 p3 p4 p5 p6 p7
  obtain ⟨hclaimed, hop, hvar, hsnd, hval⟩ := reqFields_of_bytesLE64_eq hbytes
  refine ⟨?_, fun k => getElem_of_bytesLE64_eq hbytes k k.isLt, hbytes ▸ bytesLE64_eq_queryToken_iff,
    hclaimed, rfl, hop, rfl, hvar, rfl, hsnd, rfl, hval, rfl, decodeWith_of_length ck rfl, decodeTableWord_toNat w⟩
  rw [le64_toNat]
  simp only [leNat_cons, leNat_nil]
  ring

/-- Settles O10: on zeros `CK` is Adler-32, whose value there depends on the length alone, and every record of the
table after reset is four zeros. -/
theorem checksumOfZeros : Obligations.ChecksumOfZeros := by
  have h256 : ck (zeros 256) = 0x01000001 := ck_zeros 256
  refine ⟨ckZero_ck, ck_zeros 4, h256, payload_reset_slots, ?_⟩
  rw [encodeReport_toList, payload_reset_slots, h256]
  rfl

/-- Settles O55 from the state a completed request leaves. -/
theorem hiddenRegistersAfterRequests : Obligations.HiddenRegistersAfterRequests := by
  intro i s s' h
  obtain ⟨_, hc, rfl⟩ := exec_eq_next.1 h
  refine ⟨completed_req s i, ?_⟩
  cases i with
  | query => simp [State.completed]
  | set var snd val =>
    obtain ⟨⟨t, ht⟩, _⟩ := complete_set_iff.1 hc
    simp [State.completed, ht]
  | malformedBadChecksum claimed var snd val => simp [State.completed]
  | malformedBadOpcode w => simp [State.completed]

/-- Settles O38: the frame is the encoding of the table the SET leaves, which reads back slot by slot. -/
theorem queryReportsTheLastSet : Obligations.QueryReportsTheLastSet := by
  intro s v n x t hv hidle hhost
  have hslots : (s.completed (.set v n x)).slots = s.slots.set v.toNat { ts := t, snd := n, val := x } hv := by
    simp [State.slotsAfter, hv, hhost]
  have hset := exec_of_complete (i := .set v n x) hidle (hhost ▸ complete_of_answering t _)
  have hquery := exec_of_complete (s := s.completed (.set v n x)) (i := .query) (by simpa using hidle)
    (by rw [completed_host, hhost]; exact complete_of_answering t _)
  refine ⟨_, _, encodeReport (s.completed (.set v n x)).slots, hset, hquery, (exec_query_frame hquery).2, ?_,
    fun j hj => ?_, frameChecksum_encodeReportWith ck _⟩
  · rw [encodeReport, readBack_encodeReportWith, hslots]
    exact Vector.getElem_set_self hv
  · rw [encodeReport, readBack_encodeReportWith, hslots]
    exact Vector.getElem_set_ne hv j.isLt (Ne.symm hj)

/-- Settles O39: both frames are encodings of one table, which the first QUERY and the requests between leave as it
was. -/
theorem repeatedQueriesAreIdentical : Obligations.RepeatedQueriesAreIdentical := by
  intro s s1 s2 s3 is h1 hw hrun h3
  have hslots : s2.slots = s.slots := by
    refine runRequests_slots (is := .query :: is) (List.forall_mem_cons.2 ⟨rfl, by simpa using hw⟩) ?_
    rw [runRequests, h1]
    exact hrun
  rw [(exec_query_frame h1).1, (exec_query_frame h3).1, drop_trace_of_exec_query h1, drop_trace_of_exec_query h3,
    hslots]
  exact ⟨rfl, rfl⟩

end
